-- ==== Sys2Proof/Word.lean ====
section
/-! DEFINITION. The 16-bit word of the machine (spec/00_scope.md R9 to R11) and its plainest arithmetic. -/

namespace Sys2Proof

/-- "the 16-bit addressable unit of processor memory and registers" (00_scope.md, glossary; R9). -/
abbrev Word := BitVec 16

/-- R11 `trunc16(n)`: any integer reduced modulo 65536; for a negative `n`, its two's-complement low 16 bits. -/
def trunc16 (n : Int) : Word := BitVec.ofInt 16 n

/-- R11 `signed(v)`: the two's-complement reading of a word. -/
def signed (v : Word) : Int := v.toInt

end Sys2Proof
end

