-- ==== Sys2Proof/Config.lean ====
section
/-! DEFINITION. What an implementation or the host fixes before a run (spec/00_scope.md R8, spec/10_state.md R44,
spec/70_reset_and_hazards.md R366), as plain data. A `Config` stands in `State` and nothing ever writes it, so a
statement about every state holds for every value of every parameter; the defaults are the spec's own. -/

namespace Sys2Proof

/-- R366: the wait-state cost of each instruction and of each extra word, a parameter of the spec
(92_eei_decisions.md D25): "nothing the processor computes depends on it". -/
structure WaitCost where
  /-- `WaitCost` of SET (R366; default 0). -/
  set : Nat
  /-- `WaitCost` of ADD (R366; default 1). -/
  add : Nat
  /-- `WaitCost` of SUB (R366; default 1). -/
  sub : Nat
  /-- `WaitCost` of MUL (R366; default 2). -/
  mul : Nat
  /-- `WaitCost` of MLI (R366; default 2). -/
  mli : Nat
  /-- `WaitCost` of DIV (R366; default 2). -/
  div : Nat
  /-- `WaitCost` of DVI (R366; default 2). -/
  dvi : Nat
  /-- `WaitCost` of MOD (R366; default 2). -/
  mod : Nat
  /-- `WaitCost` of MDI (R366; default 2). -/
  mdi : Nat
  /-- `WaitCost` of AND (R366; default 0). -/
  and : Nat
  /-- `WaitCost` of BOR (R366; default 0). -/
  bor : Nat
  /-- `WaitCost` of XOR (R366; default 0). -/
  xor : Nat
  /-- `WaitCost` of SHR (R366; default 0). -/
  shr : Nat
  /-- `WaitCost` of ASR (R366; default 0). -/
  asr : Nat
  /-- `WaitCost` of SHL (R366; default 0). -/
  shl : Nat
  /-- `WaitCost` of IFB (R366; default 2). -/
  ifb : Nat
  /-- `WaitCost` of IFC (R366; default 2). -/
  ifc : Nat
  /-- `WaitCost` of IFE (R366; default 2). -/
  ife : Nat
  /-- `WaitCost` of IFN (R366; default 2). -/
  ifn : Nat
  /-- `WaitCost` of IFG (R366; default 2). -/
  ifg : Nat
  /-- `WaitCost` of IFA (R366; default 2). -/
  ifa : Nat
  /-- `WaitCost` of IFL (R366; default 2). -/
  ifl : Nat
  /-- `WaitCost` of IFU (R366; default 2). -/
  ifu : Nat
  /-- `WaitCost` of ADX (R366; default 1). -/
  adx : Nat
  /-- `WaitCost` of SBX (R366; default 1). -/
  sbx : Nat
  /-- `WaitCost` of STI (R366; default 1). -/
  sti : Nat
  /-- `WaitCost` of STD (R366; default 1). -/
  std : Nat
  /-- `WaitCost` of JSR (R366; default 2). -/
  jsr : Nat
  /-- `WaitCost` of INT (R366; default 3). -/
  int : Nat
  /-- `WaitCost` of IAG (R366; default 0). -/
  iag : Nat
  /-- `WaitCost` of IAS (R366; default 0). -/
  ias : Nat
  /-- `WaitCost` of RFI (R366; default 2). -/
  rfi : Nat
  /-- `WaitCost` of IAQ (R366; default 1). -/
  iaq : Nat
  /-- `WaitCost` of HWN (R366; default 1). -/
  hwn : Nat
  /-- `WaitCost` of HWQ (R366; default 3). -/
  hwq : Nat
  /-- `WaitCost` of HWI (R366; default 3). -/
  hwi : Nat
  /-- `WaitCost` of LOG (R366; default 0). -/
  log : Nat
  /-- `WaitCost` of BRK (R366; default 0). -/
  brk : Nat
  /-- `WaitCost` of HLT (R366; default 0). -/
  hlt : Nat
  /-- The charge of each extra word fetched (R366, R367; default 1). -/
  extraWord : Nat
deriving DecidableEq, Repr

/-- R366, the table of defaults. -/
def WaitCost.default : WaitCost :=
  { set := 0, add := 1, sub := 1, mul := 2, mli := 2, div := 2, dvi := 2, mod := 2, mdi := 2,
    and := 0, bor := 0, xor := 0, shr := 0, asr := 0, shl := 0, ifb := 2, ifc := 2, ife := 2,
    ifn := 2, ifg := 2, ifa := 2, ifl := 2, ifu := 2, adx := 1, sbx := 1, sti := 1, std := 1,
    jsr := 2, int := 3, iag := 0, ias := 0, rfi := 2, iaq := 1, hwn := 1, hwq := 3, hwi := 3,
    log := 0, brk := 0, hlt := 0,
    extraWord := 1 }

/-- `EX_DEST_ORDER` (R8, R134): which write is last when the destination is EX and the opcode also updates EX. -/
inductive ExDestOrder
  /-- The result first, the opcode's EX rule second: the spec's default. -/
  | exRuleWins
  /-- The opcode's EX rule first, the result second: the only other order. -/
  | resultWins
deriving DecidableEq, Repr

/-- Whether a handler may come between a conditional that HOLDS and the instruction it guards (log entry 27). -/
inductive InterruptUnit
  /-- R290 "if and only if", R352, R354: a pending skip alone holds delivery off. -/
  | skipOnly
  /-- R222 and R296 read without R290, from which they are drawn: the two are "never separated by a handler", whether the
  condition holds or not. -/
  | wholeUnit
deriving DecidableEq, Repr

/-- R8, R97, U10: the special-opcode numbers that are parameters. -/
structure SpecialNumbers where
  /-- `OP_LOG` (default 0x13). -/
  log : BitVec 5
  /-- `OP_BRK` (default 0x14). -/
  brk : BitVec 5
  /-- `OP_HLT` (default 0x15). -/
  hlt : BitVec 5
deriving DecidableEq, Repr

/-- R8: the defaults, which are the numbers of spec/opcode_table.json. -/
def SpecialNumbers.default : SpecialNumbers := { log := 0x13#5, brk := 0x14#5, hlt := 0x15#5 }

/-- R97: the special opcodes whose numbers are no parameters: JSR, INT, IAG, IAS, RFI, IAQ, HWN, HWQ, HWI. -/
def SpecialNumbers.fixed : List (BitVec 5) :=
  [0x01#5, 0x08#5, 0x09#5, 0x0a#5, 0x0b#5, 0x0c#5, 0x10#5, 0x11#5, 0x12#5]

/-- The three numbers differ from one another and from the nine fixed ones. -/
def SpecialNumbers.wf (n : SpecialNumbers) : Bool :=
  n.log != n.brk && n.log != n.hlt && n.brk != n.hlt &&
    [n.log, n.brk, n.hlt].all fun number => !SpecialNumbers.fixed.contains number

/-- R8, R44: the parameters the model takes as arguments. `DEVICES` is in `State` (R41), `BOTH_STACK_OPERANDS` is the
refusal `bothStackOperands`, `TICK_UNIT` is the argument of `State.tick`, and `IMAGE_BYTE_ORDER` is outside the block
(R75). -/
structure Config where
  /-- `OP_LOG`, `OP_BRK`, `OP_HLT` (R97). -/
  specialNumbers : SpecialNumbers
  /-- `RATE_DIVISOR`: ticks per loop iteration, at least 1 (R8, R351). -/
  rateDivisor : Nat
  /-- The `WaitCost` table (R366). -/
  waitCost : WaitCost
  /-- `EX_DEST_ORDER` (R134). -/
  exDestOrder : ExDestOrder
  /-- `MOD_ZERO_WRITES_EX` (R168, R169, 90_conflicts.md C1): MOD and MDI by zero write 0 to EX. -/
  modZeroWritesEx : Bool
  /-- `ADX_SBX_EX_SIGNED` (R170, R171): ADX and SBX add EX as a signed number. -/
  adxSbxExSigned : Bool
  /-- The model's own parameter (DESIGN CHOICE, log entry 27): R290's condition of delivery, or a stricter one. -/
  interruptUnit : InterruptUnit
deriving DecidableEq, Repr

/-- The defaults R8 states; `rateDivisor` has none there, and 1 is what the spec's test vectors use (DESIGN CHOICE,
log entry 3); `interruptUnit` leaves the condition of delivery what R290, R352 and R354 state (log entry 27). -/
def Config.default : Config :=
  { specialNumbers := SpecialNumbers.default, rateDivisor := 1, waitCost := WaitCost.default,
    exDestOrder := .exRuleWins,
    modZeroWritesEx := true, adxSbxExSigned := false, interruptUnit := .skipOnly }

/-- R351: the rate divisor is at least 1; R97: the three special opcodes have numbers of their own. -/
def Config.wf (c : Config) : Bool := decide (1 ≤ c.rateDivisor) && c.specialNumbers.wf

/-- R7: "bounded ring, capacity 256". -/
def Config.queueCapacity : Nat := 256

/-- R7: 65536 words of memory. -/
def Config.memoryWords : Nat := 65536

/-- R7, R39: 4096 regions of 16 words. -/
def Config.regionCount : Nat := 4096

/-- R251 (92_eei_decisions.md D31): at most 65535 devices are attached directly to the processor. -/
def Config.maxDevices : Nat := 65535

end Sys2Proof
end

