-- ==== Sys2Proof/Syntax.lean ====
section
/-! DEFINITION. The instructions of spec/opcode_table.json and their operands (spec/30_encoding.md R90 to R100): one
constructor of `Instr` for each of the table's 63 rows, the 24 unassigned encodings among them, since an unassigned
word has a length and an effect (R92, R270). -/

namespace Sys2Proof

/-- R20, R21: the eight general registers `x[0]` to `x[7]`, in index order. -/
inductive Reg
  | a | b | c | x | y | z | i | j
deriving DecidableEq, Repr

/-- R93: the operand kinds, with their extra word (`nw`) where they have one. One kind, `stack`, is POP in the a
position and PUSH in the b position. -/
inductive Operand
  /-- Selectors 0x00..0x07: direct register. -/
  | reg (r : Reg)
  /-- Selectors 0x08..0x0f: the cell at a register. -/
  | ind (r : Reg)
  /-- Selectors 0x10..0x17: the cell at a register plus the extra word. -/
  | indOff (r : Reg) (nw : Word)
  /-- Selector 0x18: POP as operand a, PUSH as operand b. -/
  | stack
  /-- Selector 0x19: the cell at `sp`. -/
  | peek
  /-- Selector 0x1a: the cell at `sp` plus the extra word. -/
  | pick (nw : Word)
  /-- Selector 0x1b. -/
  | sp
  /-- Selector 0x1c. -/
  | pc
  /-- Selector 0x1d. -/
  | ex
  /-- Selector 0x1e: the cell at the extra word. -/
  | abs (nw : Word)
  /-- Selector 0x1f: the extra word as a literal. -/
  | lit (nw : Word)
  /-- Selectors 0x20..0x3f, operand a only: a packed literal, -1 to 30 (R95). -/
  | small (n : Int)
deriving DecidableEq, Repr

/-- R90, R91, R96 to R98: the rows of spec/opcode_table.json, in its order. Operand `b` is written before operand
`a`, as in the assembly (R13). -/
inductive Instr
  /-- SET b, a (R161). -/
  | set (b a : Operand)
  /-- ADD b, a (R162). -/
  | add (b a : Operand)
  /-- SUB b, a (R163). -/
  | sub (b a : Operand)
  /-- MUL b, a (R164). -/
  | mul (b a : Operand)
  /-- MLI b, a (R165). -/
  | mli (b a : Operand)
  /-- DIV b, a (R166). -/
  | div (b a : Operand)
  /-- DVI b, a (R167). -/
  | dvi (b a : Operand)
  /-- MOD b, a (R168). -/
  | mod (b a : Operand)
  /-- MDI b, a (R169). -/
  | mdi (b a : Operand)
  /-- AND b, a (R191). -/
  | and (b a : Operand)
  /-- BOR b, a (R192). -/
  | bor (b a : Operand)
  /-- XOR b, a (R193). -/
  | xor (b a : Operand)
  /-- SHR b, a (R194). -/
  | shr (b a : Operand)
  /-- ASR b, a (R195). -/
  | asr (b a : Operand)
  /-- SHL b, a (R196). -/
  | shl (b a : Operand)
  /-- IFB b, a (R211). -/
  | ifb (b a : Operand)
  /-- IFC b, a (R212). -/
  | ifc (b a : Operand)
  /-- IFE b, a (R213). -/
  | ife (b a : Operand)
  /-- IFN b, a (R214). -/
  | ifn (b a : Operand)
  /-- IFG b, a (R215). -/
  | ifg (b a : Operand)
  /-- IFA b, a (R216). -/
  | ifa (b a : Operand)
  /-- IFL b, a (R217). -/
  | ifl (b a : Operand)
  /-- IFU b, a (R218). -/
  | ifu (b a : Operand)
  /-- ADX b, a (R170). -/
  | adx (b a : Operand)
  /-- SBX b, a (R171). -/
  | sbx (b a : Operand)
  /-- STI b, a (R172). -/
  | sti (b a : Operand)
  /-- STD b, a (R173). -/
  | std (b a : Operand)
  /-- JSR a (R231). -/
  | jsr (a : Operand)
  /-- INT a (R232). -/
  | int (a : Operand)
  /-- IAG a (R233). -/
  | iag (a : Operand)
  /-- IAS a (R234). -/
  | ias (a : Operand)
  /-- RFI a (R238). -/
  | rfi (a : Operand)
  /-- IAQ a (R239). -/
  | iaq (a : Operand)
  /-- HWN a (R251). -/
  | hwn (a : Operand)
  /-- HWQ a (R252). -/
  | hwq (a : Operand)
  /-- HWI a (R253). -/
  | hwi (a : Operand)
  /-- LOG a (R265). -/
  | log (a : Operand)
  /-- BRK a (R266). -/
  | brk (a : Operand)
  /-- HLT a (R267). -/
  | hlt (a : Operand)
  /-- Unassigned basic opcode 0x18 (R268). -/
  | invalidBasic18 (b a : Operand)
  /-- Unassigned basic opcode 0x19 (R268). -/
  | invalidBasic19 (b a : Operand)
  /-- Unassigned basic opcode 0x1c (R268). -/
  | invalidBasic1C (b a : Operand)
  /-- Unassigned basic opcode 0x1d (R268). -/
  | invalidBasic1D (b a : Operand)
  /-- Unassigned special opcode 0x00 (R269). -/
  | invalidSpecial00 (a : Operand)
  /-- Unassigned special opcode 0x02 (R269). -/
  | invalidSpecial02 (a : Operand)
  /-- Unassigned special opcode 0x03 (R269). -/
  | invalidSpecial03 (a : Operand)
  /-- Unassigned special opcode 0x04 (R269). -/
  | invalidSpecial04 (a : Operand)
  /-- Unassigned special opcode 0x05 (R269). -/
  | invalidSpecial05 (a : Operand)
  /-- Unassigned special opcode 0x06 (R269). -/
  | invalidSpecial06 (a : Operand)
  /-- Unassigned special opcode 0x07 (R269). -/
  | invalidSpecial07 (a : Operand)
  /-- Unassigned special opcode 0x0d (R269). -/
  | invalidSpecial0D (a : Operand)
  /-- Unassigned special opcode 0x0e (R269). -/
  | invalidSpecial0E (a : Operand)
  /-- Unassigned special opcode 0x0f (R269). -/
  | invalidSpecial0F (a : Operand)
  /-- Unassigned special opcode 0x16 (R269). -/
  | invalidSpecial16 (a : Operand)
  /-- Unassigned special opcode 0x17 (R269). -/
  | invalidSpecial17 (a : Operand)
  /-- Unassigned special opcode 0x18 (R269). -/
  | invalidSpecial18 (a : Operand)
  /-- Unassigned special opcode 0x19 (R269). -/
  | invalidSpecial19 (a : Operand)
  /-- Unassigned special opcode 0x1a (R269). -/
  | invalidSpecial1A (a : Operand)
  /-- Unassigned special opcode 0x1b (R269). -/
  | invalidSpecial1B (a : Operand)
  /-- Unassigned special opcode 0x1c (R269). -/
  | invalidSpecial1C (a : Operand)
  /-- Unassigned special opcode 0x1d (R269). -/
  | invalidSpecial1D (a : Operand)
  /-- Unassigned special opcode 0x1e (R269). -/
  | invalidSpecial1E (a : Operand)
  /-- Unassigned special opcode 0x1f (R269). -/
  | invalidSpecial1F (a : Operand)
deriving DecidableEq, Repr

/-- The operand fields of an instruction: two in the basic format (R90), one in the special format (R91). -/
inductive Operands
  | basic (b a : Operand)
  | special (a : Operand)
deriving DecidableEq, Repr

/-- R90, R91: the operands an instruction's words name. -/
def Instr.operands : Instr → Operands
  | .set b a => .basic b a
  | .add b a => .basic b a
  | .sub b a => .basic b a
  | .mul b a => .basic b a
  | .mli b a => .basic b a
  | .div b a => .basic b a
  | .dvi b a => .basic b a
  | .mod b a => .basic b a
  | .mdi b a => .basic b a
  | .and b a => .basic b a
  | .bor b a => .basic b a
  | .xor b a => .basic b a
  | .shr b a => .basic b a
  | .asr b a => .basic b a
  | .shl b a => .basic b a
  | .ifb b a => .basic b a
  | .ifc b a => .basic b a
  | .ife b a => .basic b a
  | .ifn b a => .basic b a
  | .ifg b a => .basic b a
  | .ifa b a => .basic b a
  | .ifl b a => .basic b a
  | .ifu b a => .basic b a
  | .adx b a => .basic b a
  | .sbx b a => .basic b a
  | .sti b a => .basic b a
  | .std b a => .basic b a
  | .invalidBasic18 b a => .basic b a
  | .invalidBasic19 b a => .basic b a
  | .invalidBasic1C b a => .basic b a
  | .invalidBasic1D b a => .basic b a
  | .jsr a => .special a
  | .int a => .special a
  | .iag a => .special a
  | .ias a => .special a
  | .rfi a => .special a
  | .iaq a => .special a
  | .hwn a => .special a
  | .hwq a => .special a
  | .hwi a => .special a
  | .log a => .special a
  | .brk a => .special a
  | .hlt a => .special a
  | .invalidSpecial00 a => .special a
  | .invalidSpecial02 a => .special a
  | .invalidSpecial03 a => .special a
  | .invalidSpecial04 a => .special a
  | .invalidSpecial05 a => .special a
  | .invalidSpecial06 a => .special a
  | .invalidSpecial07 a => .special a
  | .invalidSpecial0D a => .special a
  | .invalidSpecial0E a => .special a
  | .invalidSpecial0F a => .special a
  | .invalidSpecial16 a => .special a
  | .invalidSpecial17 a => .special a
  | .invalidSpecial18 a => .special a
  | .invalidSpecial19 a => .special a
  | .invalidSpecial1A a => .special a
  | .invalidSpecial1B a => .special a
  | .invalidSpecial1C a => .special a
  | .invalidSpecial1D a => .special a
  | .invalidSpecial1E a => .special a
  | .invalidSpecial1F a => .special a

end Sys2Proof
end

