-- ==== Sys2Proof/WellFormed.lean ====
section
/-! DEFINITION. Which instruction terms the encodings of spec/30_encoding.md can express (R93, R95): every operand
kind in every position but one, the packed literal, which only operand a has and only from -1 to 30. -/

namespace Sys2Proof

/-- R95: a packed literal stands for -1 to 30. -/
def smallInRange (n : Int) : Bool := decide (-1 ≤ n) && decide (n ≤ 30)

/-- R93, R95, R99: every one of the 64 selectors of operand a. -/
def Operand.wfA : Operand → Bool
  | .small n => smallInRange n
  | .reg _ | .ind _ | .indOff _ _ | .stack | .peek | .pick _ | .sp | .pc | .ex | .abs _ | .lit _ => true

/-- R95: "they exist only in the 6-bit `a` field"; operand b is never a packed literal. -/
def Operand.wfB : Operand → Bool
  | .small _ => false
  | .reg _ | .ind _ | .indOff _ _ | .stack | .peek | .pick _ | .sp | .pc | .ex | .abs _ | .lit _ => true

/-- R99: "all 32 values of `b` and all 64 values of `a` name an operand kind in every valid instruction". -/
def Operands.wf : Operands → Bool
  | .basic b a => b.wfB && a.wfA
  | .special a => a.wfA

/-- An instruction that some words encode. -/
def Instr.wf (i : Instr) : Bool := i.operands.wf

end Sys2Proof
end

