-- ==== Sys2Proof/Decode.lean ====
section
/-! DEFINITION. Decoding and encoding (spec/30_encoding.md R90 to R101, R104, R105). Every 16-bit word is one row of
the opcode table, so decoding rejects only a list of words that ends inside an instruction. -/

namespace Sys2Proof

/-- R90: the opcode field `o = w[4:0]`. -/
def opcodeField (w : Word) : BitVec 5 := w.extractLsb' 0 5

/-- R90, R91: the field `w[9:5]`: operand b's selector, or the special opcode when `o = 0`. -/
def bField (w : Word) : BitVec 5 := w.extractLsb' 5 5

/-- R90: operand a's selector `a = w[15:10]`. -/
def aField (w : Word) : BitVec 6 := w.extractLsb' 10 6

/-- R92 `extra(s)`: selectors 0x10..0x17, 0x1a, 0x1e and 0x1f take an extra word. -/
def takesExtra (s : BitVec 6) : Bool :=
  (decide (0x10#6 ≤ s) && decide (s ≤ 0x17#6)) || s == 0x1a#6 || s == 0x1e#6 || s == 0x1f#6

/-- Operand b's 5-bit selector among the 6-bit selectors of R93. -/
def bSelector (f : BitVec 5) : BitVec 6 := f.setWidth 6

/-- R92 `len(w)`: the length in words, a function of the instruction word alone. -/
def lengthOfWord (w : Word) : Nat :=
  1 + (if takesExtra (aField w) then 1 else 0) +
    (if opcodeField w != 0#5 && takesExtra (bSelector (bField w)) then 1 else 0)

/-- R93: the register a selector's low three bits name. -/
def regOfSelector (s : BitVec 6) : Reg :=
  match s.getLsbD 2, s.getLsbD 1, s.getLsbD 0 with
  | false, false, false => .a
  | false, false, true => .b
  | false, true, false => .c
  | false, true, true => .x
  | true, false, false => .y
  | true, false, true => .z
  | true, true, false => .i
  | true, true, true => .j

/-- R93, R95: the operand a selector names, `nw` being the extra word where the selector takes one. -/
def decodeOperand (s : BitVec 6) (nw : Word) : Operand :=
  match s.getLsbD 5, s.getLsbD 4, s.getLsbD 3, s.getLsbD 2, s.getLsbD 1, s.getLsbD 0 with
  | true, _, _, _, _, _ => .small ((s.toNat : Int) - 0x21)
  | false, false, false, _, _, _ => .reg (regOfSelector s)
  | false, false, true, _, _, _ => .ind (regOfSelector s)
  | false, true, false, _, _, _ => .indOff (regOfSelector s) nw
  | false, true, true, false, false, false => .stack
  | false, true, true, false, false, true => .peek
  | false, true, true, false, true, false => .pick nw
  | false, true, true, false, true, true => .sp
  | false, true, true, true, false, false => .pc
  | false, true, true, true, false, true => .ex
  | false, true, true, true, true, false => .abs nw
  | false, true, true, true, true, true => .lit nw

/-! ### The special opcodes' numbers -/

/-- The numbers `x` and `y` exchanged. -/
def swapNumbers (x y number : BitVec 5) : BitVec 5 :=
  if number = x then y else if number = y then x else number

/-- Where `OP_BRK` stands once `OP_LOG` and 0x13 are exchanged. -/
def SpecialNumbers.brkAfterLog (n : SpecialNumbers) : BitVec 5 := swapNumbers n.log 0x13#5 n.brk

/-- Where `OP_HLT` stands once `OP_LOG` and 0x13, then `OP_BRK` and 0x14, are exchanged. -/
def SpecialNumbers.hltAfterBrk (n : SpecialNumbers) : BitVec 5 :=
  swapNumbers n.brkAfterLog 0x14#5 (swapNumbers n.log 0x13#5 n.hlt)

/-- R97: the row of spec/opcode_table.json that a special opcode's number selects. `OP_LOG`, `OP_BRK` and `OP_HLT` select
the rows 0x13, 0x14 and 0x15; a number that they leave free selects the row of one that they take, which is an
unassigned encoding's row like every other they may take (R269). -/
def SpecialNumbers.rowOf (n : SpecialNumbers) (number : BitVec 5) : BitVec 5 :=
  swapNumbers n.hltAfterBrk 0x15#5 (swapNumbers n.brkAfterLog 0x14#5 (swapNumbers n.log 0x13#5 number))

/-- R97: the number of a row, the inverse of `SpecialNumbers.rowOf`. -/
def SpecialNumbers.numberOf (n : SpecialNumbers) (row : BitVec 5) : BitVec 5 :=
  swapNumbers n.log 0x13#5 (swapNumbers n.brkAfterLog 0x14#5 (swapNumbers n.hltAfterBrk 0x15#5 row))

/-! ### The decoder -/

/-- R97, R269: the rows of the special opcodes, bit by bit. -/
def decodeSpecial (f : BitVec 5) (a : Operand) : Instr :=
  match f.getLsbD 4, f.getLsbD 3, f.getLsbD 2, f.getLsbD 1, f.getLsbD 0 with
  | false, false, false, false, false => .invalidSpecial00 a  -- 0x00
  | false, false, false, false, true => .jsr a  -- 0x01
  | false, false, false, true, false => .invalidSpecial02 a  -- 0x02
  | false, false, false, true, true => .invalidSpecial03 a  -- 0x03
  | false, false, true, false, false => .invalidSpecial04 a  -- 0x04
  | false, false, true, false, true => .invalidSpecial05 a  -- 0x05
  | false, false, true, true, false => .invalidSpecial06 a  -- 0x06
  | false, false, true, true, true => .invalidSpecial07 a  -- 0x07
  | false, true, false, false, false => .int a  -- 0x08
  | false, true, false, false, true => .iag a  -- 0x09
  | false, true, false, true, false => .ias a  -- 0x0a
  | false, true, false, true, true => .rfi a  -- 0x0b
  | false, true, true, false, false => .iaq a  -- 0x0c
  | false, true, true, false, true => .invalidSpecial0D a  -- 0x0d
  | false, true, true, true, false => .invalidSpecial0E a  -- 0x0e
  | false, true, true, true, true => .invalidSpecial0F a  -- 0x0f
  | true, false, false, false, false => .hwn a  -- 0x10
  | true, false, false, false, true => .hwq a  -- 0x11
  | true, false, false, true, false => .hwi a  -- 0x12
  | true, false, false, true, true => .log a  -- 0x13
  | true, false, true, false, false => .brk a  -- 0x14
  | true, false, true, false, true => .hlt a  -- 0x15
  | true, false, true, true, false => .invalidSpecial16 a  -- 0x16
  | true, false, true, true, true => .invalidSpecial17 a  -- 0x17
  | true, true, false, false, false => .invalidSpecial18 a  -- 0x18
  | true, true, false, false, true => .invalidSpecial19 a  -- 0x19
  | true, true, false, true, false => .invalidSpecial1A a  -- 0x1a
  | true, true, false, true, true => .invalidSpecial1B a  -- 0x1b
  | true, true, true, false, false => .invalidSpecial1C a  -- 0x1c
  | true, true, true, false, true => .invalidSpecial1D a  -- 0x1d
  | true, true, true, true, false => .invalidSpecial1E a  -- 0x1e
  | true, true, true, true, true => .invalidSpecial1F a  -- 0x1f

/-- R96, R268: the basic opcodes, bit by bit; opcode 0 opens the special set (R91), keyed by the row `f`. -/
def decodeOpcode (o f : BitVec 5) (b a : Operand) : Instr :=
  match o.getLsbD 4, o.getLsbD 3, o.getLsbD 2, o.getLsbD 1, o.getLsbD 0 with
  | false, false, false, false, false => decodeSpecial f a  -- 0x00
  | false, false, false, false, true => .set b a  -- 0x01
  | false, false, false, true, false => .add b a  -- 0x02
  | false, false, false, true, true => .sub b a  -- 0x03
  | false, false, true, false, false => .mul b a  -- 0x04
  | false, false, true, false, true => .mli b a  -- 0x05
  | false, false, true, true, false => .div b a  -- 0x06
  | false, false, true, true, true => .dvi b a  -- 0x07
  | false, true, false, false, false => .mod b a  -- 0x08
  | false, true, false, false, true => .mdi b a  -- 0x09
  | false, true, false, true, false => .and b a  -- 0x0a
  | false, true, false, true, true => .bor b a  -- 0x0b
  | false, true, true, false, false => .xor b a  -- 0x0c
  | false, true, true, false, true => .shr b a  -- 0x0d
  | false, true, true, true, false => .asr b a  -- 0x0e
  | false, true, true, true, true => .shl b a  -- 0x0f
  | true, false, false, false, false => .ifb b a  -- 0x10
  | true, false, false, false, true => .ifc b a  -- 0x11
  | true, false, false, true, false => .ife b a  -- 0x12
  | true, false, false, true, true => .ifn b a  -- 0x13
  | true, false, true, false, false => .ifg b a  -- 0x14
  | true, false, true, false, true => .ifa b a  -- 0x15
  | true, false, true, true, false => .ifl b a  -- 0x16
  | true, false, true, true, true => .ifu b a  -- 0x17
  | true, true, false, false, false => .invalidBasic18 b a  -- 0x18
  | true, true, false, false, true => .invalidBasic19 b a  -- 0x19
  | true, true, false, true, false => .adx b a  -- 0x1a
  | true, true, false, true, true => .sbx b a  -- 0x1b
  | true, true, true, false, false => .invalidBasic1C b a  -- 0x1c
  | true, true, true, false, true => .invalidBasic1D b a  -- 0x1d
  | true, true, true, true, false => .sti b a  -- 0x1e
  | true, true, true, true, true => .std b a  -- 0x1f

/-- R104, R121: the instruction at a word `w` that the words `n1` and `n2` follow: operand a's extra word comes
first, and a word the selectors do not call for is not looked at. -/
def decodeAt (numbers : SpecialNumbers) (w n1 n2 : Word) : Instr :=
  decodeOpcode (opcodeField w) (numbers.rowOf (bField w))
    (decodeOperand (bSelector (bField w)) (if takesExtra (aField w) then n2 else n1))
    (decodeOperand (aField w) n1)

/-- Why a list of words is not decoded. -/
inductive DecodeError
  /-- The list ends before the instruction's last word (R92). -/
  | truncated
deriving DecidableEq, Repr

/-- Decoding the front of a list of words: the instruction and the words after it. -/
def decode (numbers : SpecialNumbers) : List Word → Except DecodeError (Instr × List Word)
  | [] => .error .truncated
  | w :: rest =>
    if rest.length + 1 < lengthOfWord w then .error .truncated
    else .ok (decodeAt numbers w (rest.getD 0 0) (rest.getD 1 0), rest.drop (lengthOfWord w - 1))

/-- The 16-bit word number `k` of an instruction whose bits are `n`, the first word in the low bits. -/
def wordOfBits (n k : Nat) : Word := BitVec.ofNat 16 (n >>> (16 * k))

/-- The instruction the decoder reads from the bits `w`, `nbits` of them given and every bit above them 0: the words
are in ascending memory order (R104), each is a whole word (R75: the core has no byte order), and the numbers are those
of the table, the defaults of R8. -/
def decodeTableWord (nbits w : Nat) : Option Instr :=
  let n := w % 2 ^ nbits
  match decode SpecialNumbers.default [wordOfBits n 0, wordOfBits n 1, wordOfBits n 2] with
  | .ok (i, _) => some i
  | .error _ => none

/-! ### The encoder -/

/-- An instruction as the fields of its format (R90, R91). -/
inductive Fields
  /-- R90: `aaaaaabbbbbooooo`, `o` not 0. -/
  | basic (o : BitVec 5) (b a : Operand)
  /-- R91: `aaaaaasssss00000`. -/
  | special (so : BitVec 5) (a : Operand)
deriving DecidableEq, Repr

/-- R96 to R98: the opcode number of each row, as spec/opcode_table.json has it. -/
def Instr.fields : Instr → Fields
  | .set b a => .basic 0x01#5 b a
  | .add b a => .basic 0x02#5 b a
  | .sub b a => .basic 0x03#5 b a
  | .mul b a => .basic 0x04#5 b a
  | .mli b a => .basic 0x05#5 b a
  | .div b a => .basic 0x06#5 b a
  | .dvi b a => .basic 0x07#5 b a
  | .mod b a => .basic 0x08#5 b a
  | .mdi b a => .basic 0x09#5 b a
  | .and b a => .basic 0x0a#5 b a
  | .bor b a => .basic 0x0b#5 b a
  | .xor b a => .basic 0x0c#5 b a
  | .shr b a => .basic 0x0d#5 b a
  | .asr b a => .basic 0x0e#5 b a
  | .shl b a => .basic 0x0f#5 b a
  | .ifb b a => .basic 0x10#5 b a
  | .ifc b a => .basic 0x11#5 b a
  | .ife b a => .basic 0x12#5 b a
  | .ifn b a => .basic 0x13#5 b a
  | .ifg b a => .basic 0x14#5 b a
  | .ifa b a => .basic 0x15#5 b a
  | .ifl b a => .basic 0x16#5 b a
  | .ifu b a => .basic 0x17#5 b a
  | .adx b a => .basic 0x1a#5 b a
  | .sbx b a => .basic 0x1b#5 b a
  | .sti b a => .basic 0x1e#5 b a
  | .std b a => .basic 0x1f#5 b a
  | .jsr a => .special 0x01#5 a
  | .int a => .special 0x08#5 a
  | .iag a => .special 0x09#5 a
  | .ias a => .special 0x0a#5 a
  | .rfi a => .special 0x0b#5 a
  | .iaq a => .special 0x0c#5 a
  | .hwn a => .special 0x10#5 a
  | .hwq a => .special 0x11#5 a
  | .hwi a => .special 0x12#5 a
  | .log a => .special 0x13#5 a
  | .brk a => .special 0x14#5 a
  | .hlt a => .special 0x15#5 a
  | .invalidBasic18 b a => .basic 0x18#5 b a
  | .invalidBasic19 b a => .basic 0x19#5 b a
  | .invalidBasic1C b a => .basic 0x1c#5 b a
  | .invalidBasic1D b a => .basic 0x1d#5 b a
  | .invalidSpecial00 a => .special 0x00#5 a
  | .invalidSpecial02 a => .special 0x02#5 a
  | .invalidSpecial03 a => .special 0x03#5 a
  | .invalidSpecial04 a => .special 0x04#5 a
  | .invalidSpecial05 a => .special 0x05#5 a
  | .invalidSpecial06 a => .special 0x06#5 a
  | .invalidSpecial07 a => .special 0x07#5 a
  | .invalidSpecial0D a => .special 0x0d#5 a
  | .invalidSpecial0E a => .special 0x0e#5 a
  | .invalidSpecial0F a => .special 0x0f#5 a
  | .invalidSpecial16 a => .special 0x16#5 a
  | .invalidSpecial17 a => .special 0x17#5 a
  | .invalidSpecial18 a => .special 0x18#5 a
  | .invalidSpecial19 a => .special 0x19#5 a
  | .invalidSpecial1A a => .special 0x1a#5 a
  | .invalidSpecial1B a => .special 0x1b#5 a
  | .invalidSpecial1C a => .special 0x1c#5 a
  | .invalidSpecial1D a => .special 0x1d#5 a
  | .invalidSpecial1E a => .special 0x1e#5 a
  | .invalidSpecial1F a => .special 0x1f#5 a

/-- R20, R93: a register's index. -/
def Reg.index : Reg → BitVec 6
  | .a => 0#6
  | .b => 1#6
  | .c => 2#6
  | .x => 3#6
  | .y => 4#6
  | .z => 5#6
  | .i => 6#6
  | .j => 7#6

/-- R93, R95: an operand's selector. -/
def Operand.selector : Operand → BitVec 6
  | .reg r => r.index
  | .ind r => 0x08#6 + r.index
  | .indOff r _ => 0x10#6 + r.index
  | .stack => 0x18#6
  | .peek => 0x19#6
  | .pick _ => 0x1a#6
  | .sp => 0x1b#6
  | .pc => 0x1c#6
  | .ex => 0x1d#6
  | .abs _ => 0x1e#6
  | .lit _ => 0x1f#6
  | .small n => BitVec.ofInt 6 (n + 0x21)

/-- R94: an operand's extra word, if it has one. -/
def Operand.extra : Operand → List Word
  | .indOff _ nw | .pick nw | .abs nw | .lit nw => [nw]
  | .reg _ | .ind _ | .stack | .peek | .sp | .pc | .ex | .small _ => []

/-- R105: `w = (a << 10) | (b << 5) | o`, or `(a << 10) | (so << 5)`. -/
def Instr.word (numbers : SpecialNumbers) (i : Instr) : Word :=
  match i.fields with
  | .basic o b a => a.selector ++ b.selector.setWidth 5 ++ o
  | .special so a => a.selector ++ numbers.numberOf so ++ 0#5

/-- R104: the extra words in memory order, operand a's first. -/
def Instr.extraWords (i : Instr) : List Word :=
  match i.fields with
  | .basic _ b a => a.extra ++ b.extra
  | .special _ a => a.extra

/-- R104, R105: the words of an instruction, at ascending addresses. -/
def encode (numbers : SpecialNumbers) (i : Instr) : List Word := i.word numbers :: i.extraWords

/-- R92: an instruction's length in words. -/
def Instr.wordCount (i : Instr) : Nat := 1 + i.extraWords.length

/-- R124: `o` is in 0x10..0x17; "a special instruction, `o = 0`, is never conditional". -/
def Instr.isConditional (i : Instr) : Bool :=
  match i.fields with
  | .basic o _ _ => decide (0x10#5 ≤ o) && decide (o ≤ 0x17#5)
  | .special _ _ => false

end Sys2Proof
end

