-- ==== Sys2Proof/Machine/Store.lean ====
section
/-! DEFINITION. Sparse plain data: a table from numbers to values held as a list of (key, value) pairs in ONE canonical
form, keys strictly rising and no value equal to what an unlisted key reads as, so that equal tables are equal lists.
Memory, the dirty flags and the sync counts (spec/10_state.md R37, R39) are three such tables. -/

namespace Sys2Proof.Machine

/-- A table of `α` by number; what an unlisted key reads as is the `d` of the operations below. -/
abbrev Store (α : Type) := List (Nat × α)

/-- The value at key `k`, `d` where `k` is not listed. -/
def Store.lookup {α : Type} (d : α) : Store α → Nat → α
  | [], _ => d
  | (a, v) :: t, k => if a = k then v else Store.lookup d t k

/-- `k` mapped to `v`, every other key as before; a value equal to `d` leaves no entry. -/
def Store.update {α : Type} [DecidableEq α] (d : α) : Store α → Nat → α → Store α
  | [], k, v => if v = d then [] else [(k, v)]
  | (a, x) :: t, k, v =>
    if k < a then (if v = d then (a, x) :: t else (k, v) :: (a, x) :: t)
    else if k = a then (if v = d then t else (k, v) :: t)
    else (a, x) :: Store.update d t k v

/-- The canonical form from key `lo` on, every key below `bound`. -/
def Store.wfFrom {α : Type} [DecidableEq α] (d : α) (bound lo : Nat) : Store α → Bool
  | [] => true
  | (k, v) :: t =>
    decide (lo ≤ k) && decide (k < bound) && !decide (v = d) && Store.wfFrom d bound (k + 1) t

/-- The canonical form: keys strictly rising and below `bound`, no value `d`. -/
def Store.wf {α : Type} [DecidableEq α] (d : α) (bound : Nat) (l : Store α) : Bool := Store.wfFrom d bound 0 l

end Sys2Proof.Machine
end

