-- ==== Sys2Proof/Machine/State.lean ====
section
/-! DEFINITION. The state of the machine (spec/10_state.md R20 to R49), as plain data: the processor, the memory
subsystem, the bus and its devices; the two ways a step can stop; and the states at creation and after `Reset`. -/

namespace Sys2Proof.Machine

/-- R20, R21: the eight general registers. -/
structure Regs where
  a : Word
  b : Word
  c : Word
  x : Word
  y : Word
  z : Word
  i : Word
  j : Word
deriving DecidableEq, Repr

/-- R45: every general register 0. -/
def Regs.zero : Regs := { a := 0, b := 0, c := 0, x := 0, y := 0, z := 0, i := 0, j := 0 }

/-- R37, R60: the 65536 cells of 16 bits, by word address. The unit is the word: "there is no byte address anywhere in
the core" (log entry 4). An unlisted address reads as 0, what every cell holds after `Reset` (R45, R65). -/
abbrev Memory := Store Word

/-- The canonical form of memory. -/
abbrev Memory.wf (m : Memory) : Bool := Store.wf (0 : Word) Config.memoryWords m

/-- R39, R60 "a parallel dirty-bitmap at 16-word granularity": one flag per region. An unlisted region is dirty, as
every region is after `Reset` (R48). -/
abbrev DirtyMap := Store Bool

/-- R39: the number of subscribers of each region; an unlisted region has none. -/
abbrev SyncCounts := Store Nat

/-- R40: a sync subscription, with the device that owns it (an index into `State.devices`). -/
structure Subscription where
  owner : Nat
  base : Word
  length : Nat
  registered : Bool
deriving DecidableEq, Repr

/-- R41, R302: a device's identity record. -/
structure Identity where
  deviceId : BitVec 32
  manufacturerId : BitVec 32
  version : Word
deriving DecidableEq, Repr

/-- R41: a device's "upstream" parent: the processor, or the hub at an index of `State.devices` (R305: "a lightweight
handle (index or id)"). -/
inductive Upstream
  | processor
  | device (node : Nat)
deriving DecidableEq, Repr

/-- R313, R315: what the storage controller is busy with. -/
inductive TransferKind
  | reading
  | writing
deriving DecidableEq, Repr

/-- R315: a block, "1024 bytes = 512 words". -/
abbrev Block := Vector Word 512

/-- R315 to R318: a transfer in flight: its sector, the base of its memory window, the service-time budget left, the
captured block and the background task's completion flag. A write's block is captured at the command; a read's is `none`
until the background task has populated it (R318, log entry 23). -/
structure Transfer where
  kind : TransferKind
  sector : Nat
  window : Word
  remaining : Nat
  block : Option Block
  completed : Bool
deriving DecidableEq, Repr

/-- What a storage controller's behaviour depends on and no run changes (R44), where the source gives no number (N44):
the error code of a write without a medium, the fixed service time, whether a command is acknowledged. -/
structure StorageSettings where
  noMediumOnWrite : Word
  serviceTime : Nat
  acknowledges : Bool
deriving DecidableEq, Repr

/-- R284: the messages of a storage controller's interrupts, which a program may set. -/
structure StorageMessages where
  acknowledge : Word
  completion : Word
  medium : Word
deriving DecidableEq, Repr

/-- R313 to R319: the storage controller. `transfer = none` is the Idle state. `activity` is R317's mark "for sync
consumers (e.g. an activity LED)": set by a completion, read by nothing in the block. -/
structure Storage where
  settings : StorageSettings
  messages : StorageMessages
  medium : Option Nat
  transfer : Option Transfer
  error : Word
  activity : Bool
deriving DecidableEq, Repr

/-- R305 "a closed set of device variants": the two the source describes, and every other device, whose internal state
has no stated shape. -/
inductive DeviceKind
  /-- R310, R346: a ROM-class device and its image. -/
  | rom (image : List Word)
  /-- R313 to R319: the storage controller. -/
  | storage (controller : Storage)
  /-- R312: any other device, with its internal state. -/
  | other (memory : List Word)
deriving DecidableEq, Repr

/-- R41, R305: a device of the bus controller's collection. -/
structure Device where
  upstream : Upstream
  identity : Identity
  kind : DeviceKind
deriving DecidableEq, Repr

/-- The whole machine. Field by field: INVENTORY.md, '## State'. -/
structure State where
  /-- R20: `x[0..7]`. -/
  regs : Regs
  /-- R23. -/
  pc : Word
  /-- R25. -/
  sp : Word
  /-- R26. -/
  ex : Word
  /-- R29. -/
  ia : Word
  /-- R30: the interrupt queue, oldest message first. -/
  iq : List Word
  /-- R30: the queue's enable flag. -/
  iqEnable : Bool
  /-- R28. -/
  skipping : Bool
  /-- R31. -/
  halted : Bool
  /-- R32. -/
  running : Bool
  /-- R33: cycles owed before the next decode, unbounded. -/
  wait : Nat
  /-- R34: ticks not yet converted into iterations. -/
  leftover : Nat
  /-- R37. -/
  mem : Memory
  /-- R39. -/
  dirty : DirtyMap
  /-- R39. -/
  syncCount : SyncCounts
  /-- R40: every subscription record a device has made. -/
  subs : List Subscription
  /-- R41, R305: every attached device, in the order of the `attach` calls; `DEVICES` is the processor's direct
  children among them, in this order. -/
  devices : List Device
  /-- R8, R44: the parameters of the run; nothing writes them. -/
  config : Config
  /-- The MODEL's own counter: how many times a device has been asked for a response (log entry 9). -/
  deviceDraws : Nat
  /-- The MODEL's own flag: the last instruction fetched was a conditional. Read where `InterruptUnit.wholeUnit` is the
  parameter, and nowhere else (log entry 27). -/
  guarding : Bool
deriving DecidableEq, Repr

/-- Nothing in this machine stops it with a fault: "Nothing else traps" (R281), "no memory access raises a fault"
(R61), and its one exception, the fatal halt (R280), leaves a state (R270), which the model reaches as a next state.
There is no constructor. -/
inductive Fault
deriving DecidableEq, Repr

/-- Why the model gives no next state. -/
inductive Refusal
  /-- An instruction that has no meaning yet; no arm of `exec` answers it. Safe. -/
  | notModelled (mnemonic : String)
  /-- R130, R139: an executed basic instruction with both selectors 0x18, to which the spec gives no result and which
  it says a model must refuse. Raised by every basic instruction's meaning on that one form. Safe. -/
  | bothStackOperands
  /-- R300, 93_implementation_defined.md U15: the host attaches a device to a running machine. Safe. -/
  | attachWhileRunning
  /-- R251 (D31), U16: the host attaches a 65536th device to the processor. Safe. -/
  | tooManyDevices
  /-- R41: the host attaches a device to a hub that is not there. Safe. -/
  | noSuchUpstream
  /-- R303: the host lets a device act that is not there, or that is not of the kind the action is for. Safe. -/
  | noSuchDevice
  /-- R314, R315: the host's command to a storage controller that is Busy and has its medium, to which the spec gives no
  effect. Safe. -/
  | storageBusy
deriving DecidableEq, Repr

/-- R45 to R49, the column 'after Reset', from the state at creation: every register 0, `running` unchanged (false),
memory all 0, every dirty flag set, no devices. -/
def State.reset : State :=
  { regs := Regs.zero, pc := 0, sp := 0, ex := 0, ia := 0, iq := [], iqEnable := true, skipping := false,
    halted := false, running := false, wait := 0, leftover := 0, mem := [], dirty := [], syncCount := [],
    subs := [], devices := [], config := Config.default, deviceDraws := 0, guarding := false }

/-- R47, R49, the column 'at creation': as after `Reset`, but no dirty flag is set. -/
def State.creation : State :=
  { State.reset with dirty := (List.range Config.regionCount).map (fun r => (r, false)) }

end Sys2Proof.Machine
end

