-- ==== Sys2Proof/Machine/Ops.lean ====
section
/-! DEFINITION. The named operations over registers, memory, the stack and the interrupt queue (spec/00_scope.md R12,
spec/20_memory.md R62 to R65, spec/60_exceptions.md R280, R286, R290, R292, spec/44_special_control.md R238). -/

namespace Sys2Proof.Machine

/-! ### Registers -/

/-- R12 `x[i]`. -/
def Regs.get (g : Regs) : Reg → Word
  | .a => g.a
  | .b => g.b
  | .c => g.c
  | .x => g.x
  | .y => g.y
  | .z => g.z
  | .i => g.i
  | .j => g.j

/-- R12 `x[i] <- v`. -/
def Regs.set (g : Regs) (r : Reg) (v : Word) : Regs :=
  match r with
  | .a => { g with a := v }
  | .b => { g with b := v }
  | .c => { g with c := v }
  | .x => { g with x := v }
  | .y => { g with y := v }
  | .z => { g with z := v }
  | .i => { g with i := v }
  | .j => { g with j := v }

/-- R12 `x[i]`. -/
def State.reg (s : State) (r : Reg) : Word := s.regs.get r

/-- R12 `x[i] <- v`. -/
def State.setReg (s : State) (r : Reg) (v : Word) : State := { s with regs := s.regs.set r v }

/-! ### Memory -/

/-- R39: the region an address lies in, `addr >> 4`. -/
def regionOf (addr : Word) : Nat := addr.toNat / 16

/-- R62 `MemRead(addr, 1)`. -/
def State.read (s : State) (addr : Word) : Word := Store.lookup 0 s.mem addr.toNat

/-- R39 `dirty[r]`. -/
def State.isDirty (s : State) (r : Nat) : Bool := Store.lookup true s.dirty r

/-- R39 `sync_count[r]`. -/
def State.syncOf (s : State) (r : Nat) : Nat := Store.lookup 0 s.syncCount r

/-- R66: `dirty[r] <- true`. -/
def State.markDirty (s : State) (r : Nat) : State := { s with dirty := Store.update true s.dirty r true }

/-- R63 `MemWrite(addr, 1, v)`: the cell and its region's dirty flag. -/
def State.write (s : State) (addr v : Word) : State :=
  { s with mem := Store.update 0 s.mem addr.toNat v,
           dirty := Store.update true s.dirty (regionOf addr) true }

/-- R64: words from `base` up, wrapping after 0xFFFF. -/
def State.loadFrom (s : State) (base : Word) : List Word → State
  | [] => s
  | w :: ws => (s.write base w).loadFrom (base + 1) ws

/-- R64 `load(base, words)`: at most 65536 words; every other cell is unchanged. -/
def State.load (s : State) (base : Word) (words : List Word) : State :=
  s.loadFrom base (words.take Config.memoryWords)

/-- R65: every cell 0, every dirty flag set, the sync counts left alone. -/
def State.memoryReset (s : State) : State := { s with mem := [], dirty := [] }

/-- R67 `clear_dirty(r)`, for devices; there are 4096 regions and no other number names one. -/
def State.clearDirty (s : State) (r : Nat) : State :=
  if r < Config.regionCount then { s with dirty := Store.update true s.dirty r false } else s

/-! ### The stack -/

/-- R12 `Push(v)`. -/
def State.push (s : State) (v : Word) : State := { s with sp := s.sp - 1 }.write (s.sp - 1) v

/-- R12 `Pop()`: the word popped. -/
def State.top (s : State) : Word := s.read s.sp

/-- R12 `Pop()`: the state after it. -/
def State.dropTop (s : State) : State := { s with sp := s.sp + 1 }

/-! ### Interrupts and the fatal halt -/

/-- R286 `Raise(m)`: queued when `ia` is not 0 and the queue is not full, else lost without trace. -/
def State.raise (s : State) (m : Word) : State :=
  if s.ia ≠ 0 ∧ s.iq.length < Config.queueCapacity then { s with iq := s.iq ++ [m] } else s

/-- R222, R296: between a conditional and the instruction it guards, where the parameter counts the two as one unit. -/
def State.insideUnit (s : State) : Bool := s.config.interruptUnit == .wholeUnit && s.guarding

/-- R290: "if interrupts are enabled, not mid-skip, and the queue is non-empty". These three are the whole condition where
the parameter is `skipOnly`, as it is in the reset state; `wholeUnit` adds the last (DESIGN CHOICE of the model to have that
value, log entry 27, safe: no statement fixes the parameter). -/
def State.deliverable (s : State) : Bool := s.iqEnable && !s.skipping && !s.iq.isEmpty && !s.insideUnit

/-- R292: the entry of a handler for message `m`: delivery disabled, `pc` pushed, then `x[0]`; `x[0]` gets the message,
`pc` the interrupt address, and the halt ends. `ia` is not tested (R293). -/
def State.enterHandler (s : State) (m : Word) : State :=
  let t := ({ s with iqEnable := false }.push s.pc).push (s.reg .a)
  { t.setReg .a m with pc := t.ia, halted := false }

/-- R292 `Deliver`: the oldest message, dequeued. With nothing queued there is nothing to deliver. -/
def State.deliver (s : State) : State :=
  match s.iq with
  | [] => s
  | m :: rest => { s with iq := rest }.enterHandler m

/-- R354: the delivery attempt of an iteration. -/
def State.attemptDelivery (s : State) : State := if s.deliverable then s.deliver else s

/-- R238: the return from a handler: delivery enabled, `x[0]` popped, then `pc`. -/
def State.returnFromInterrupt (s : State) : State :=
  let s1 := { s with iqEnable := true }
  let s2 := s1.dropTop.setReg .a s1.top
  { s2.dropTop with pc := s2.top }

/-- R270, R280 `raise FatalHalt`: the one exception of the hardware; it saves nothing and vectors nowhere. -/
def State.fatalHalt (s : State) : State := { s with running := false }

/-! ### Timing -/

/-- R12, R33: `wait <- wait + n`. -/
def State.addWait (s : State) (n : Nat) : State := { s with wait := s.wait + n }

/-! ### Outcomes -/

/-- What an instruction or a step answers. -/
abbrev Result := Host.Outcome State Fault Refusal

end Sys2Proof.Machine
end

