-- ==== Sys2Proof/Machine/Operands.lean ====
section
/-! DEFINITION. Operand resolution, every addressing mode in both positions (spec/40_instruction_cycle.md R125 to
R137). -/

namespace Sys2Proof.Machine

/-- R126: the place an operand names. -/
inductive Loc
  | reg (r : Reg)
  | mem (addr : Word)
  | sp
  | pc
  | ex
  | lit (v : Word)
deriving DecidableEq, Repr

/-- R125, R126, R136, R137: the place an operand names in a state; the stack operand's is the cell at the `sp` of that
state. Every address wraps modulo 65536. -/
def State.place (s : State) (o : Operand) : Loc :=
  match o with
  | .reg r => .reg r
  | .ind r => .mem (s.reg r)
  | .indOff r nw => .mem (s.reg r + nw)
  | .stack => .mem s.sp
  | .peek => .mem s.sp
  | .pick nw => .mem (s.sp + nw)
  | .sp => .sp
  | .pc => .pc
  | .ex => .ex
  | .abs nw => .mem nw
  | .lit nw => .lit nw
  | .small n => .lit (trunc16 n)

/-- R127 `ReadLoc`. -/
def State.readLoc (s : State) : Loc → Word
  | .reg r => s.reg r
  | .mem addr => s.read addr
  | .sp => s.sp
  | .pc => s.pc
  | .ex => s.ex
  | .lit v => v

/-- R128, R131 `WriteLoc`: a write to a literal is discarded. -/
def State.writeLoc (s : State) (l : Loc) (v : Word) : State :=
  match l with
  | .reg r => s.setReg r v
  | .mem addr => s.write addr v
  | .sp => { s with sp := v }
  | .pc => { s with pc := v }
  | .ex => { s with ex := v }
  | .lit _ => s

/-- R125, R136: "the a position is always the pop direction": the state after operand a is resolved. -/
def State.popAdjust (s : State) (o : Operand) : State :=
  if o = .stack then { s with sp := s.sp + 1 } else s

/-- R126, R129: the state after operand b is resolved: PUSH has decremented `sp`, once. -/
def State.pushAdjust (s : State) (o : Operand) : State :=
  if o = .stack then { s with sp := s.sp - 1 } else s

/-- R125 `ReadA`: the value, read before `sp` moves. -/
def State.valueA (s : State) (o : Operand) : Word := s.readLoc (s.place o)

/-- R126 `ResolveB`: the place, named after `sp` has moved. -/
def State.placeB (s : State) (o : Operand) : Loc := (s.pushAdjust o).place o

/-- R130: both operands are the push/pop stack slot. -/
def bothStack (b a : Operand) : Bool := b == .stack && a == .stack

/-- R121, R135, R367: one `WaitCost.extra_word` for each extra word of an operand. -/
def State.extraCost (s : State) (o : Operand) : Nat := o.extra.length * s.config.waitCost.extraWord

end Sys2Proof.Machine
end

