-- ==== Sys2Proof/Machine/Flags.lean ====
section
/-! DEFINITION. What each basic opcode computes from `vb`, `va` and `ex`: its result, its rule for EX, the machine's only
arithmetic status (spec/10_state.md R26, R27), and the conditions of the conditionals. Results are computed exactly, over
integers, and narrowed at the end (R11). -/

namespace Sys2Proof.Machine

/-- R139 `Op_o`: the result written to operand b's place and the new EX, where the opcode produces them. -/
structure AluOut where
  result : Option Word
  exNew : Option Word
deriving DecidableEq, Repr

/-- A result that leaves EX alone. -/
def AluOut.plain (v : Word) : AluOut := { result := some v, exNew := none }

/-- A result with a new EX. -/
def AluOut.withEx (v e : Word) : AluOut := { result := some v, exNew := some e }

/-- R161, R172, R173: SET, STI and STD move operand a. -/
def aluSet (_vb va : Word) : AluOut := .plain va

/-- R162: EX is the unsigned carry. -/
def aluAdd (vb va : Word) : AluOut :=
  let t := vb.toNat + va.toNat
  .withEx (trunc16 t) (if t > 0xFFFF then 1 else 0)

/-- R163: EX is 0xFFFF on borrow. -/
def aluSub (vb va : Word) : AluOut :=
  let t : Int := vb.toNat - va.toNat
  .withEx (trunc16 t) (if t < 0 then 0xFFFF else 0)

/-- R164: EX is the high word of the unsigned product. -/
def aluMul (vb va : Word) : AluOut :=
  let t := vb.toNat * va.toNat
  .withEx (trunc16 t) (trunc16 (t / 65536 : Nat))

/-- R165: EX is the high word of the signed product; `/` rounds down, as the arithmetic shift does. -/
def aluMli (vb va : Word) : AluOut :=
  let t := signed vb * signed va
  .withEx (trunc16 t) (trunc16 (t / 65536))

/-- R166: EX is the first 16 fraction bits of the unsigned quotient; a zero divisor gives 0 and 0. -/
def aluDiv (vb va : Word) : AluOut :=
  if va = 0 then .withEx 0 0
  else .withEx (trunc16 (vb.toNat / va.toNat : Nat)) (trunc16 (vb.toNat * 65536 / va.toNat : Nat))

/-- R167: the signed quotient, rounded toward zero. -/
def aluDvi (vb va : Word) : AluOut :=
  if va = 0 then .withEx 0 0
  else .withEx (trunc16 ((signed vb).tdiv (signed va))) (trunc16 ((signed vb * 65536).tdiv (signed va)))

/-- R168, R169: what MOD and MDI by zero leave, by the parameter `MOD_ZERO_WRITES_EX` (90_conflicts.md C1). -/
def aluModZero (writesEx : Bool) : AluOut := if writesEx then .withEx 0 0 else .plain 0

/-- R168: EX is unchanged when the divisor is not 0. -/
def aluMod (writesEx : Bool) (vb va : Word) : AluOut :=
  if va = 0 then aluModZero writesEx else .plain (trunc16 (vb.toNat % va.toNat : Nat))

/-- R169: the remainder has the dividend's sign. -/
def aluMdi (writesEx : Bool) (vb va : Word) : AluOut :=
  if va = 0 then aluModZero writesEx else .plain (trunc16 ((signed vb).tmod (signed va)))

/-- R170, R171: the EX that ADX and SBX add, by the parameter `ADX_SBX_EX_SIGNED`. -/
def carryIn (exSigned : Bool) (ex : Word) : Int := if exSigned then signed ex else ex.toNat

/-- R170. -/
def aluAdx (exSigned : Bool) (ex vb va : Word) : AluOut :=
  let t : Int := vb.toNat + va.toNat + carryIn exSigned ex
  .withEx (trunc16 t) (if t > 0xFFFF then 1 else 0)

/-- R171. -/
def aluSbx (exSigned : Bool) (ex vb va : Word) : AluOut :=
  let t : Int := vb.toNat - va.toNat + carryIn exSigned ex
  .withEx (trunc16 t) (if t < 0 then 0xFFFF else if t > 0xFFFF then 1 else 0)

/-- R191. -/
def aluAnd (vb va : Word) : AluOut := .plain (vb &&& va)

/-- R192. -/
def aluBor (vb va : Word) : AluOut := .plain (vb ||| va)

/-- R193. -/
def aluXor (vb va : Word) : AluOut := .plain (vb ^^^ va)

/-- R194, R195: the bits a right shift by `va` moves out, left-aligned, from the unsigned `vb`. -/
def shiftedOutRight (vb va : Word) : Word := trunc16 (vb.toNat * 65536 / 2 ^ va.toNat : Nat)

/-- R194. -/
def aluShr (vb va : Word) : AluOut :=
  .withEx (trunc16 (vb.toNat / 2 ^ va.toNat : Nat)) (shiftedOutRight vb va)

/-- R195: the signed quotient rounded down. -/
def aluAsr (vb va : Word) : AluOut :=
  .withEx (trunc16 (signed vb / ((2 ^ va.toNat : Nat) : Int))) (shiftedOutRight vb va)

/-- R196. -/
def aluShl (vb va : Word) : AluOut :=
  let t := vb.toNat * 2 ^ va.toNat
  .withEx (trunc16 t) (trunc16 (t / 65536 : Nat))

/-! ### Conditions -/

/-- R211. -/
def condIfb (vb va : Word) : Bool := vb &&& va != 0

/-- R212. -/
def condIfc (vb va : Word) : Bool := vb &&& va == 0

/-- R213. -/
def condIfe (vb va : Word) : Bool := vb == va

/-- R214. -/
def condIfn (vb va : Word) : Bool := vb != va

/-- R215, unsigned. -/
def condIfg (vb va : Word) : Bool := decide (vb.toNat > va.toNat)

/-- R216, signed. -/
def condIfa (vb va : Word) : Bool := decide (signed vb > signed va)

/-- R217, unsigned. -/
def condIfl (vb va : Word) : Bool := decide (vb.toNat < va.toNat)

/-- R218, signed. -/
def condIfu (vb va : Word) : Bool := decide (signed vb < signed va)

end Sys2Proof.Machine
end

