-- ==== Sys2Proof/Machine/Template.lean ====
section
/-! DEFINITION. The shapes every instruction runs in, once its words are fetched and `pc` is past them: the basic
template (spec/40_instruction_cycle.md R139), the conditionals' (spec/43_conditional.md R210), and the special template
(spec/44_special_control.md R230), each ending in the wait-state charge (R135). -/

namespace Sys2Proof.Machine

/-- R134, R139: the result written to its place and the new EX, in the order `EX_DEST_ORDER` gives; the order shows only
where the place is EX. -/
def State.writeBack (s : State) (l : Loc) (out : AluOut) : State :=
  let result (t : State) : State := match out.result with
    | some v => t.writeLoc l v
    | none => t
  let exRule (t : State) : State := match out.exNew with
    | some e => { t with ex := e }
    | none => t
  match s.config.exDestOrder with
  | .exRuleWins => exRule (result s)
  | .resultWins => result (exRule s)

/-- R135: the charge of an executed basic instruction, one extra-word charge per operand that has one (R367). -/
def chargeBasic (cost : Nat) (b a : Operand) (s : State) : State :=
  s.addWait (cost + s.extraCost a + s.extraCost b)

/-- R135: the charge of an executed special instruction. -/
def chargeSpecial (cost : Nat) (a : Operand) (s : State) : State := s.addWait (cost + s.extraCost a)

/-- R139 for an opcode that writes operand b. `after` is its further effect (STI, STD). -/
def runBasic (op : Word → Word → AluOut) (after : State → State) (cost : Nat) (b a : Operand) (s : State) : Result :=
  if bothStack b a then .refused .bothStackOperands
  else
    let va := s.valueA a
    let s1 := s.popAdjust a
    let locb := s1.placeB b
    let s2 := s1.pushAdjust b
    let vb := s2.readLoc locb
    .next (chargeBasic cost b a (after (s2.writeBack locb (op vb va))))

/-- R210: a conditional reads both operands, with their side effects, and sets `skipping` when its condition is false. -/
def runConditional (cond : Word → Word → Bool) (cost : Nat) (b a : Operand) (s : State) : Result :=
  if bothStack b a then .refused .bothStackOperands
  else
    let va := s.valueA a
    let s1 := s.popAdjust a
    let locb := s1.placeB b
    let s2 := s1.pushAdjust b
    let vb := s2.readLoc locb
    .next (chargeBasic cost b a (if cond vb va then s2 else { s2 with skipping := true }))

/-- R230 for a special instruction that reads its operand. -/
def runSpecial (op : Word → State → State) (cost : Nat) (a : Operand) (s : State) : Result :=
  .next (chargeSpecial cost a (op (s.valueA a) (s.popAdjust a)))

/-- R230 for IAG and HWN, which write their operand (R136). -/
def runSpecialWrite (v : Word) (cost : Nat) (a : Operand) (s : State) : Result :=
  .next (chargeSpecial cost a ((s.popAdjust a).writeLoc (s.place a) v))

/-- R268 to R270: an unassigned encoding, executed: the fatal halt, no operand resolved and no wait charged. -/
def runInvalid (s : State) : Result := .next s.fatalHalt

end Sys2Proof.Machine
end

