-- ==== Sys2Proof/Machine/Arith.lean ====
section
/-! DEFINITION. The move and arithmetic instructions (spec/41_arithmetic.md R160 to R175). -/

namespace Sys2Proof.Machine

/-- R161. -/
def execSet (b a : Operand) (s : State) : Result := runBasic aluSet id s.config.waitCost.set b a s

/-- R162. -/
def execAdd (b a : Operand) (s : State) : Result := runBasic aluAdd id s.config.waitCost.add b a s

/-- R163. -/
def execSub (b a : Operand) (s : State) : Result := runBasic aluSub id s.config.waitCost.sub b a s

/-- R164. -/
def execMul (b a : Operand) (s : State) : Result := runBasic aluMul id s.config.waitCost.mul b a s

/-- R165. -/
def execMli (b a : Operand) (s : State) : Result := runBasic aluMli id s.config.waitCost.mli b a s

/-- R166. -/
def execDiv (b a : Operand) (s : State) : Result := runBasic aluDiv id s.config.waitCost.div b a s

/-- R167. -/
def execDvi (b a : Operand) (s : State) : Result := runBasic aluDvi id s.config.waitCost.dvi b a s

/-- R168. -/
def execMod (b a : Operand) (s : State) : Result :=
  runBasic (aluMod s.config.modZeroWritesEx) id s.config.waitCost.mod b a s

/-- R169. -/
def execMdi (b a : Operand) (s : State) : Result :=
  runBasic (aluMdi s.config.modZeroWritesEx) id s.config.waitCost.mdi b a s

/-- R170. -/
def execAdx (b a : Operand) (s : State) : Result :=
  runBasic (aluAdx s.config.adxSbxExSigned s.ex) id s.config.waitCost.adx b a s

/-- R171. -/
def execSbx (b a : Operand) (s : State) : Result :=
  runBasic (aluSbx s.config.adxSbxExSigned s.ex) id s.config.waitCost.sbx b a s

/-- R172, R173: the cursors I and J each moved by `d`, after the move. -/
def State.stepCursors (s : State) (d : Word) : State := (s.setReg .i (s.reg .i + d)).setReg .j (s.reg .j + d)

/-- R172. -/
def execSti (b a : Operand) (s : State) : Result :=
  runBasic aluSet (fun t => t.stepCursors 1) s.config.waitCost.sti b a s

/-- R173. -/
def execStd (b a : Operand) (s : State) : Result :=
  runBasic aluSet (fun t => t.stepCursors (-1)) s.config.waitCost.std b a s

end Sys2Proof.Machine
end

