-- ==== Sys2Proof/Machine/Conditional.lean ====
section
/-! DEFINITION. The conditional instructions (spec/43_conditional.md R210 to R218). -/

namespace Sys2Proof.Machine

/-- R211. -/
def execIfb (b a : Operand) (s : State) : Result := runConditional condIfb s.config.waitCost.ifb b a s

/-- R212. -/
def execIfc (b a : Operand) (s : State) : Result := runConditional condIfc s.config.waitCost.ifc b a s

/-- R213. -/
def execIfe (b a : Operand) (s : State) : Result := runConditional condIfe s.config.waitCost.ife b a s

/-- R214. -/
def execIfn (b a : Operand) (s : State) : Result := runConditional condIfn s.config.waitCost.ifn b a s

/-- R215. -/
def execIfg (b a : Operand) (s : State) : Result := runConditional condIfg s.config.waitCost.ifg b a s

/-- R216. -/
def execIfa (b a : Operand) (s : State) : Result := runConditional condIfa s.config.waitCost.ifa b a s

/-- R217. -/
def execIfl (b a : Operand) (s : State) : Result := runConditional condIfl s.config.waitCost.ifl b a s

/-- R218. -/
def execIfu (b a : Operand) (s : State) : Result := runConditional condIfu s.config.waitCost.ifu b a s

end Sys2Proof.Machine
end

