-- ==== Sys2Proof/Machine/Control.lean ====
section
/-! DEFINITION. Call and interrupt control (spec/44_special_control.md R230 to R239). -/

namespace Sys2Proof.Machine

/-- R231: operand a is read, then the return address pushed, then the jump made. -/
def execJsr (a : Operand) (s : State) : Result :=
  runSpecial (fun va t => { t.push t.pc with pc := va }) s.config.waitCost.jsr a s

/-- R232: `Raise(va)`; the handler is entered by a later iteration. -/
def execInt (a : Operand) (s : State) : Result := runSpecial (fun va t => t.raise va) s.config.waitCost.int a s

/-- R233. -/
def execIag (a : Operand) (s : State) : Result := runSpecialWrite s.ia s.config.waitCost.iag a s

/-- R234. -/
def execIas (a : Operand) (s : State) : Result := runSpecial (fun va t => { t with ia := va }) s.config.waitCost.ias a s

/-- R238: the operand's value is ignored. -/
def execRfi (a : Operand) (s : State) : Result :=
  runSpecial (fun _ t => t.returnFromInterrupt) s.config.waitCost.rfi a s

/-- R239: zero turns delivery on. -/
def execIaq (a : Operand) (s : State) : Result :=
  runSpecial (fun va t => { t with iqEnable := va == 0 }) s.config.waitCost.iaq a s

end Sys2Proof.Machine
end

