-- ==== Sys2Proof/Machine/Sync.lean ====
section
/-! DEFINITION. The sync-subscription registry (spec/20_memory.md R68 to R73). -/

namespace Sys2Proof.Machine

/-- R68: the first region a subscription covers. -/
def Subscription.first (u : Subscription) : Nat := regionOf u.base

/-- R68: the last region a subscription covers; the window is cut at region 4095 and a length of 0 counts as 1. -/
def Subscription.last (u : Subscription) : Nat := min 4095 ((u.base.toNat + max u.length 1 - 1) / 16)

/-- R68: the covered set. -/
def Subscription.covers (u : Subscription) (r : Nat) : Bool := decide (u.first ≤ r) && decide (r ≤ u.last)

/-- R68: the covered regions, in rising order. -/
def Subscription.regions (u : Subscription) : List Nat := List.range' u.first (u.last + 1 - u.first)

/-- R69: every region of the list one subscriber more, and dirty. -/
def State.countUp (s : State) : List Nat → State
  | [] => s
  | r :: rs =>
    ({ s with syncCount := Store.update 0 s.syncCount r (s.syncOf r + 1) }.markDirty r).countUp rs

/-- R70: every region of the list one subscriber less; the dirty flags stay. -/
def State.countDown (s : State) : List Nat → State
  | [] => s
  | r :: rs => { s with syncCount := Store.update 0 s.syncCount r (s.syncOf r - 1) }.countDown rs

/-- The subscription record `k` with its registered flag set to `on`. -/
def State.setRegistered (s : State) (k : Nat) (u : Subscription) (on : Bool) : State :=
  { s with subs := s.subs.set k { u with registered := on } }

/-- R69 `register(s)`, of the subscription record `k`: "double-registering … is a no-op". -/
def State.register (s : State) (k : Nat) : State :=
  match s.subs[k]? with
  | none => s
  | some u => if u.registered then s else (s.countUp u.regions).setRegistered k u true

/-- R70 `unregister(s)`, of the subscription record `k`. -/
def State.unregister (s : State) (k : Nat) : State :=
  match s.subs[k]? with
  | none => s
  | some u => if u.registered then (s.countDown u.regions).setRegistered k u false else s

/-- R71 `register_sync(addr, length)`: a new record of `owner`'s, the last of the list, registered. -/
def State.registerSync (s : State) (owner : Nat) (base : Word) (length : Nat) : State :=
  State.register { s with subs := s.subs ++ [{ owner, base, length, registered := false }] } s.subs.length

/-- R40, R301: every subscription of a device unregistered, the first `n` records looked at. -/
def State.unregisterOwned (s : State) (owner : Nat) : Nat → State
  | 0 => s
  | n + 1 =>
    let t := s.unregisterOwned owner n
    match t.subs[n]? with
    | some u => if u.owner = owner then t.unregister n else t
    | none => t

/-- R72: "the number of live, still-registered subscriptions covering" a region. -/
def State.liveSubscriptions (s : State) (r : Nat) : Nat :=
  (s.subs.filter (fun u => u.registered && u.covers r)).length

end Sys2Proof.Machine
end

