-- ==== Sys2Proof/Machine/Devices.lean ====
section
/-! DEFINITION. The bus controller's device table and what a device may do to the machine (spec/10_state.md R41,
spec/45_special_hardware.md R255, spec/60_exceptions.md R300 to R310). -/

namespace Sys2Proof.Machine

/-- R255: one change of a device's own internal state. What a device is stays as it is: its class, a ROM's image, a
storage controller's settings (R44), its medium and its transfer, which R313 to R319 alone change. -/
inductive InternalOp
  /-- Of a device that is neither a ROM nor a storage controller. -/
  | setMemory (memory : List Word)
  /-- Of a storage controller: its error code and its activity mark. -/
  | setStatus (error : Word) (activity : Bool)
  /-- Of a storage controller (R284). -/
  | setMessages (messages : StorageMessages)
deriving DecidableEq, Repr

/-- R255, R303: one thing a device does when it runs. There is none for `sp`, `ex`, `ia`, `iq_enable`, `skipping`,
`halted`, `running` or `leftover`, nor one that removes a message from the queue (R255). -/
inductive DeviceOp
  /-- Write a general register. -/
  | setReg (r : Reg) (v : Word)
  /-- Write `pc`. -/
  | setPc (v : Word)
  /-- R63. -/
  | write (addr v : Word)
  /-- R64. -/
  | load (base : Word) (words : List Word)
  /-- R71: create and activate a subscription. -/
  | registerSync (base : Word) (length : Nat)
  /-- R69, of the record at an index, if it is the device's own. -/
  | register (k : Nat)
  /-- R70, of the record at an index, if it is the device's own. -/
  | unregister (k : Nat)
  /-- R67. -/
  | clearDirty (r : Nat)
  /-- R286. -/
  | raise (m : Word)
  /-- R255: add to `wait`. -/
  | addWait (n : Nat)
  /-- R255: change its own internal state. -/
  | internal (op : InternalOp)
deriving DecidableEq, Repr

/-- R301, R304: what the core calls on every device; HWI it calls on one (Hardware.lean). -/
inductive DeviceEvent
  | start
  | stop
  | reset
deriving DecidableEq, Repr

/-- Whether the subscription record `k` belongs to a device (R40: "owns its own Sync handle"). -/
def State.owns (s : State) (node k : Nat) : Bool :=
  match s.subs[k]? with
  | some u => u.owner == node
  | none => false

/-- R255: a device's state after one change of its own; a change that is not for its class does nothing. -/
def DeviceKind.act : DeviceKind → InternalOp → DeviceKind
  | .other _, .setMemory memory => .other memory
  | .storage c, .setStatus error activity => .storage { c with error, activity }
  | .storage c, .setMessages messages => .storage { c with messages }
  | kind, _ => kind

/-- R255: the device at an index changes its own internal state. -/
def State.internalOp (s : State) (node : Nat) (op : InternalOp) : State :=
  { s with devices := s.devices.modify node (fun d => { d with kind := d.kind.act op }) }

/-- Changes of a device's internal state, one after another. -/
def State.internalOps (s : State) (node : Nat) : List InternalOp → State
  | [] => s
  | op :: ops => (s.internalOp node op).internalOps node ops

/-- The device at an index with a new internal state. -/
def State.setKind (s : State) (node : Nat) (kind : DeviceKind) : State :=
  { s with devices := s.devices.modify node (fun d => { d with kind }) }

/-- R303: one device operation, by the device at index `node`. -/
def State.deviceOp (s : State) (node : Nat) : DeviceOp → State
  | .setReg r v => s.setReg r v
  | .setPc v => { s with pc := v }
  | .write addr v => s.write addr v
  | .load base words => s.load base words
  | .registerSync base length => s.registerSync node base length
  | .register k => if s.owns node k then s.register k else s
  | .unregister k => if s.owns node k then s.unregister k else s
  | .clearDirty r => s.clearDirty r
  | .raise m => s.raise m
  | .addWait n => s.addWait n
  | .internal op => s.internalOp node op

/-- The operations of a device, one after another. -/
def State.deviceOps (s : State) (node : Nat) : List DeviceOp → State
  | [] => s
  | op :: ops => (s.deviceOp node op).deviceOps node ops

end Sys2Proof.Machine

namespace Sys2Proof

/-- R301 "What a device does on each is the device's business". FREE VALUE (log entry 9): what the device at an index does on
a start, stop or reset, given the whole state, the model's draw counter among it. It has no body. Its type says what bounds
it: a device calls the core when it runs, "inside its HWI handler, or in its own tick" (R303), and `Start`, `Stop` and
`Reset` change nothing of the processor and of memory but what R341, R342 and R45 to R49 say (log entry 28). -/
opaque Config.deviceBusiness : Machine.DeviceEvent → Nat → Machine.State → List Machine.InternalOp

namespace Machine

/-- A device's response to an event: free changes of its own state, applied in order; the draw counter advances, so that
the same device asked again need not answer the same. -/
def State.respond (s : State) (e : DeviceEvent) (node : Nat) : State :=
  { s with deviceDraws := s.deviceDraws + 1 }.internalOps node (Config.deviceBusiness e node s)

/-- R41: the children of the processor or of a hub, in attachment order, as indices of `devices`. -/
def childrenOf (devices : List Device) (u : Upstream) : List Nat :=
  (List.range devices.length).filter (fun k => (devices[k]?.map Device.upstream) == some u)

/-- R38, R41 `DEVICES`: the enumerable device table, as indices of `devices`. -/
def State.deviceTable (s : State) : List Nat := childrenOf s.devices .processor

/-- R251 `N`. -/
def State.deviceCount (s : State) : Nat := s.deviceTable.length

/-- R252, R253 `DEVICES[index]`: the index in `devices` of the device an operand names, if there is one. -/
def State.deviceAt (s : State) (index : Word) : Option Nat := s.deviceTable[index.toNat]?

/-- R252: a device's identity record. -/
def State.identityOf (s : State) (node : Nat) : Option Identity := s.devices[node]?.map Device.identity

/-- R301: a device and, inside, its own children, before its next sibling; `fuel` bounds the depth. -/
def visitFrom (devices : List Device) : Nat → Nat → List Nat
  | 0, node => [node]
  | fuel + 1, node => node :: (childrenOf devices (.device node)).flatMap (visitFrom devices fuel)

/-- R301: the depth-first order of a broadcast. The depth of the graph is at most the number of devices. -/
def broadcastOrder (devices : List Device) : List Nat :=
  (childrenOf devices .processor).flatMap (visitFrom devices devices.length)

/-- R346: the load action of a ROM-class device. -/
def State.loadRom (s : State) (image : List Word) : State := { s.load 0 image with pc := 0 }

/-- R40, R301: every subscription of a device unregistered. -/
def State.releaseSubscriptions (s : State) (node : Nat) : State := s.unregisterOwned node s.subs.length

/-- R301: start, stop or reset of one device. On reset it must unregister its subscriptions (R40), and a ROM-class device
then loads its image (R310); a ROM does nothing on start and stop (R348); the rest is "the device's business". -/
def State.deviceEvent (s : State) (e : DeviceEvent) (node : Nat) : State :=
  match s.devices[node]?, e with
  | none, _ => s
  | some d, .reset =>
    match d.kind with
    | .rom image => (s.releaseSubscriptions node).loadRom image
    | .storage _ | .other _ => (s.releaseSubscriptions node).respond .reset node
  | some d, .start =>
    match d.kind with
    | .rom _ => s
    | .storage _ | .other _ => s.respond .start node
  | some d, .stop =>
    match d.kind with
    | .rom _ => s
    | .storage _ | .other _ => s.respond .stop node

/-- The devices at some indices, one after another. -/
def State.eachDevice (s : State) (e : DeviceEvent) : List Nat → State
  | [] => s
  | node :: rest => (s.deviceEvent e node).eachDevice e rest

/-- R301: "`start/stop/reset` broadcast depth-first to all children". -/
def State.broadcast (s : State) (e : DeviceEvent) : State := s.eachDevice e (broadcastOrder s.devices)

end Machine

end Sys2Proof
end

