-- ==== Sys2Proof/Machine/Storage.lean ====
section
/-! DEFINITION. The storage controller (spec/60_exceptions.md R313 to R319), the spec's example of the device contract; the
block itself ends at the bus controller (spec/00_scope.md R6). It takes commands inside HWI (Hardware.lean) and between two
`Tick` calls of the processor, and does the rest between two `Tick` calls (HostOps.lean). -/

namespace Sys2Proof.Machine

/-- R314's scenario: "assert immediate error code 2". -/
def noMediumOnRead : Word := 2

/-- The storage controller at an index, if there is one. -/
def State.storageAt (s : State) (node : Nat) : Option Storage :=
  match s.devices[node]? with
  | some { kind := .storage c, .. } => some c
  | _ => none

/-- R315: the block of a memory window, its 512 words from a base up, wrapping. -/
def State.window (s : State) (base : Word) : Block := Vector.ofFn fun k => s.read (base + BitVec.ofNat 16 k)

/-- R314: a command that finds no medium: an error code, no Busy state entered. -/
def Storage.reportNoMedium (c : Storage) : TransferKind → Storage
  | .reading => { c with error := noMediumOnRead }
  | .writing => { c with error := c.settings.noMediumOnWrite }

/-- R315: the state on an accepted command: Busy with the service-time budget, a write's block captured, acceptance
acknowledged where the device does so. -/
def State.beginTransfer (s : State) (node : Nat) (c : Storage) (kind : TransferKind) (sector : Nat) (base : Word) : State :=
  let block := match kind with
    | .reading => none
    | .writing => some (s.window base)
  let t : Transfer := { kind, sector, window := base, remaining := c.settings.serviceTime, block, completed := false }
  let s1 := s.setKind node (.storage { c with transfer := some t })
  if c.settings.acknowledges then s1.raise c.messages.acknowledge else s1

/-- R314, R315: the state after "read sector" or "write sector", wherever the command comes from. Without a medium the
report is synchronous, Busy or not; `none` is a command to a Busy controller with its medium, which has no stated effect. -/
def State.transferCommand (s : State) (node : Nat) (c : Storage) (kind : TransferKind) (sector : Nat) (base : Word) :
    Option State :=
  if c.medium.isNone then some (s.setKind node (.storage (c.reportNoMedium kind)))
  else if c.transfer.isSome then none
  else some (s.beginTransfer node c kind sector base)

/-- R314, R315: a command that does not come by HWI. -/
def State.storageCommand (s : State) (node : Nat) (kind : TransferKind) (sector : Nat) (base : Word) : Result :=
  match s.storageAt node with
  | none => .refused .noSuchDevice
  | some c =>
    match s.transferCommand node c kind sector base with
    | some t => .next t
    | none => .refused .storageBusy

/-- R318: the background task populates the whole block (a read), then sets the completion flag, in one hand-off; "once
signalled stays so", and the block with it. -/
def Transfer.handOff (t : Transfer) (fetched : Block) : Transfer :=
  if t.completed then t
  else match t.kind with
    | .reading => { t with block := some fetched, completed := true }
    | .writing => { t with completed := true }

/-- R318: the background task's one visible act, a draw of the environment (R370). Idle, there is no task. -/
def State.storageBackground (s : State) (node : Nat) (fetched : Block) : Result :=
  match s.storageAt node with
  | none => .refused .noSuchDevice
  | some c =>
    match c.transfer with
    | none => .next s
    | some t => .next (s.setKind node (.storage { c with transfer := some (t.handOff fetched) }))

/-- R316, R318: the block of a transfer whose service time is over and whose completion has been signalled; before both, the
tick loop does not read it. -/
def Transfer.finished (t : Transfer) : Option Block := if t.remaining = 0 ∧ t.completed then t.block else none

/-- R317: a finished transfer: a read's block copied into its window, Idle again, the activity mark, a completion interrupt. -/
def State.storageComplete (s : State) (node : Nat) (c : Storage) (t : Transfer) (block : Block) : State :=
  let s1 := s.setKind node (.storage { c with transfer := none, activity := true })
  let s2 := match t.kind with
    | .reading => s1.load t.window block.toList
    | .writing => s1
  s2.raise c.messages.completion

/-- R316: one device tick: the service-time budget counts down; at zero, completion applies if it has been signalled. -/
def State.storageTick (s : State) (node : Nat) : Result :=
  match s.storageAt node with
  | none => .refused .noSuchDevice
  | some c =>
    match c.transfer with
    | none => .next s
    | some t =>
      let ticked := { t with remaining := t.remaining - 1 }
      match ticked.finished with
      | some block => .next (s.storageComplete node c ticked block)
      | none => .next (s.setKind node (.storage { c with transfer := some ticked }))

/-- R319: "Changing the attached medium while Busy is permitted and immediately raises an interrupt without canceling the
in-flight operation"; in Idle no interrupt is stated and none is raised. -/
def State.storageMedium (s : State) (node : Nat) (medium : Option Nat) : Result :=
  match s.storageAt node with
  | none => .refused .noSuchDevice
  | some c =>
    let s1 := s.setKind node (.storage { c with medium })
    .next (if c.transfer.isSome then s1.raise c.messages.medium else s1)

end Sys2Proof.Machine
end

