-- ==== Sys2Proof/Machine/Hardware.lean ====
section
/-! DEFINITION. The device bus instructions (spec/45_special_hardware.md R250 to R255). -/

namespace Sys2Proof

namespace Machine

/-- R310, R314: what an HWI asks of a device, as far as the spec gives the command an effect. -/
inductive DeviceCommand
  /-- R310: a ROM's load command. -/
  | loadImage
  /-- R314, R315: "read sector" or "write sector". -/
  | transfer (kind : TransferKind) (sector : Nat) (base : Word)
deriving DecidableEq, Repr

end Machine

/-- R6, R310: the commands' numbers and register interface are "not in the source". FREE VALUE (log entry 29): which command
an HWI to a device is, given the whole state; `none` is any other. It has no body. -/
opaque Config.deviceCommand : Nat → Machine.State → Option Machine.DeviceCommand

/-- R255 `Device[i].hwi`: "a relation between the machine state before and after, about which nothing may be assumed except
what the device's own specification gives". FREE VALUE (log entry 9): what the device at an index does on an HWI beside the
effect the spec gives its command, if it gives one. It has no body. -/
opaque Config.deviceResponse : Nat → Machine.State → List Machine.DeviceOp

/-- R255: FREE VALUE (log entry 29): what a storage controller does on an HWI after it has begun a transfer. It has no
body. -/
opaque Config.deviceFollowUp : Nat → Machine.State → List Machine.DeviceOp

namespace Machine

/-- R251. -/
def execHwn (a : Operand) (s : State) : Result :=
  runSpecialWrite (BitVec.ofNat 16 s.deviceCount) s.config.waitCost.hwn a s

/-- R252: the five identity words in A, B, C, X and Y. -/
def State.showIdentity (s : State) (d : Identity) : State :=
  ((((s.setReg .a (d.deviceId.extractLsb' 0 16)).setReg .b (d.deviceId.extractLsb' 16 16)).setReg .c
    d.version).setReg .x (d.manufacturerId.extractLsb' 0 16)).setReg .y (d.manufacturerId.extractLsb' 16 16)

/-- R252, R254: nothing where the index names no device. -/
def State.queryDevice (s : State) (index : Word) : State :=
  match (s.deviceAt index).bind s.identityOf with
  | some d => s.showIdentity d
  | none => s

/-- R310, R314, R315: the stated effect of a command on the device at an index: a ROM's load command loads its image, a
storage controller's transfer command is taken or reported. Anything else has none. The acts `after` follow a transfer, since
they cannot undo it (log entry 29). -/
def State.obey (s : State) (node : Nat) (command : Option DeviceCommand) (after : List DeviceOp) : State :=
  match s.devices[node]?.map Device.kind, command with
  | some (.rom image), some .loadImage => s.loadRom image
  | some (.storage c), some (.transfer kind sector base) =>
    match s.transferCommand node c kind sector base with
    | some t => if c.medium.isSome then t.deviceOps node after else t
    | none => s
  | _, _ => s

/-- R253, R255: the HWI handler of the device at an index, given the command it is and what else the device does, before the
stated effect and after it: any of the acts R255 names. A ROM's load and a report of failure come last, so that they stand
(log entry 29). The draw counter advances. -/
def State.runHandler (s : State) (node : Nat) (command : Option DeviceCommand) (before after : List DeviceOp) : State :=
  ({ s with deviceDraws := s.deviceDraws + 1 }.deviceOps node before).obey node command after

/-- R253, R255: the HWI handler of the device at an index, with its three draws. -/
def State.hardwareInterrupt (s : State) (node : Nat) : State :=
  s.runHandler node (Config.deviceCommand node s) (Config.deviceResponse node s) (Config.deviceFollowUp node s)

/-- R253, R254: the device's handler, run to completion; nothing where the index names no device. -/
def State.interruptDevice (s : State) (index : Word) : State :=
  match s.deviceAt index with
  | some node => s.hardwareInterrupt node
  | none => s

/-- R252. -/
def execHwq (a : Operand) (s : State) : Result := runSpecial (fun va t => t.queryDevice va) s.config.waitCost.hwq a s

/-- R253. -/
def execHwi (a : Operand) (s : State) : Result :=
  runSpecial (fun va t => t.interruptDevice va) s.config.waitCost.hwi a s

end Machine

end Sys2Proof
end

