-- ==== Sys2Proof/Machine/Invalid.lean ====
section
/-! DEFINITION. The 24 unassigned encodings (spec/46_special_misc.md R268 to R270): each, executed, is a fatal halt. Its
operand fields give it a length (R92) and nothing else. -/

namespace Sys2Proof.Machine

/-- R268: basic opcode 0x18. -/
def execInvalidBasic18 (_b _a : Operand) (s : State) : Result := runInvalid s

/-- R268: basic opcode 0x19. -/
def execInvalidBasic19 (_b _a : Operand) (s : State) : Result := runInvalid s

/-- R268: basic opcode 0x1c. -/
def execInvalidBasic1C (_b _a : Operand) (s : State) : Result := runInvalid s

/-- R268: basic opcode 0x1d. -/
def execInvalidBasic1D (_b _a : Operand) (s : State) : Result := runInvalid s

/-- R269: special opcode 0x00. -/
def execInvalidSpecial00 (_a : Operand) (s : State) : Result := runInvalid s

/-- R269: special opcode 0x02. -/
def execInvalidSpecial02 (_a : Operand) (s : State) : Result := runInvalid s

/-- R269: special opcode 0x03. -/
def execInvalidSpecial03 (_a : Operand) (s : State) : Result := runInvalid s

/-- R269: special opcode 0x04. -/
def execInvalidSpecial04 (_a : Operand) (s : State) : Result := runInvalid s

/-- R269: special opcode 0x05. -/
def execInvalidSpecial05 (_a : Operand) (s : State) : Result := runInvalid s

/-- R269: special opcode 0x06. -/
def execInvalidSpecial06 (_a : Operand) (s : State) : Result := runInvalid s

/-- R269: special opcode 0x07. -/
def execInvalidSpecial07 (_a : Operand) (s : State) : Result := runInvalid s

/-- R269: special opcode 0x0d. -/
def execInvalidSpecial0D (_a : Operand) (s : State) : Result := runInvalid s

/-- R269: special opcode 0x0e. -/
def execInvalidSpecial0E (_a : Operand) (s : State) : Result := runInvalid s

/-- R269: special opcode 0x0f. -/
def execInvalidSpecial0F (_a : Operand) (s : State) : Result := runInvalid s

/-- R269: special opcode 0x16. -/
def execInvalidSpecial16 (_a : Operand) (s : State) : Result := runInvalid s

/-- R269: special opcode 0x17. -/
def execInvalidSpecial17 (_a : Operand) (s : State) : Result := runInvalid s

/-- R269: special opcode 0x18. -/
def execInvalidSpecial18 (_a : Operand) (s : State) : Result := runInvalid s

/-- R269: special opcode 0x19. -/
def execInvalidSpecial19 (_a : Operand) (s : State) : Result := runInvalid s

/-- R269: special opcode 0x1a. -/
def execInvalidSpecial1A (_a : Operand) (s : State) : Result := runInvalid s

/-- R269: special opcode 0x1b. -/
def execInvalidSpecial1B (_a : Operand) (s : State) : Result := runInvalid s

/-- R269: special opcode 0x1c. -/
def execInvalidSpecial1C (_a : Operand) (s : State) : Result := runInvalid s

/-- R269: special opcode 0x1d. -/
def execInvalidSpecial1D (_a : Operand) (s : State) : Result := runInvalid s

/-- R269: special opcode 0x1e. -/
def execInvalidSpecial1E (_a : Operand) (s : State) : Result := runInvalid s

/-- R269: special opcode 0x1f. -/
def execInvalidSpecial1F (_a : Operand) (s : State) : Result := runInvalid s

end Sys2Proof.Machine
end

