-- ==== Sys2Proof/Machine/Logic.lean ====
section
/-! DEFINITION. The bitwise and shift instructions (spec/42_logic_shift.md R190 to R197). -/

namespace Sys2Proof.Machine

/-- R191. -/
def execAnd (b a : Operand) (s : State) : Result := runBasic aluAnd id s.config.waitCost.and b a s

/-- R192. -/
def execBor (b a : Operand) (s : State) : Result := runBasic aluBor id s.config.waitCost.bor b a s

/-- R193. -/
def execXor (b a : Operand) (s : State) : Result := runBasic aluXor id s.config.waitCost.xor b a s

/-- R194. -/
def execShr (b a : Operand) (s : State) : Result := runBasic aluShr id s.config.waitCost.shr b a s

/-- R195. -/
def execAsr (b a : Operand) (s : State) : Result := runBasic aluAsr id s.config.waitCost.asr b a s

/-- R196. -/
def execShl (b a : Operand) (s : State) : Result := runBasic aluShl id s.config.waitCost.shl b a s

end Sys2Proof.Machine
end

