-- ==== Sys2Proof/Machine/Misc.lean ====
section
/-! DEFINITION. LOG, BRK and HLT (spec/46_special_misc.md R265 to R267). -/

namespace Sys2Proof.Machine

/-- R265: a no-op that resolves its operand. -/
def execLog (a : Operand) (s : State) : Result := runSpecial (fun _ t => t) s.config.waitCost.log a s

/-- R266: exactly as LOG. -/
def execBrk (a : Operand) (s : State) : Result := runSpecial (fun _ t => t) s.config.waitCost.brk a s

/-- R267. -/
def execHlt (a : Operand) (s : State) : Result :=
  runSpecial (fun _ t => { t with halted := true }) s.config.waitCost.hlt a s

end Sys2Proof.Machine
end

