-- ==== Sys2Proof/Machine/Dispatch.lean ====
section
/-! DEFINITION. One arm per constructor of `Instr`, each one call of that instruction's meaning. -/

namespace Sys2Proof.Machine

def exec (i : Instr) (s : State) : Host.Outcome State Fault Refusal :=
  match i with
  | .set b a => Sys2Proof.Machine.execSet b a s
  | .add b a => Sys2Proof.Machine.execAdd b a s
  | .sub b a => Sys2Proof.Machine.execSub b a s
  | .mul b a => Sys2Proof.Machine.execMul b a s
  | .mli b a => Sys2Proof.Machine.execMli b a s
  | .div b a => Sys2Proof.Machine.execDiv b a s
  | .dvi b a => Sys2Proof.Machine.execDvi b a s
  | .mod b a => Sys2Proof.Machine.execMod b a s
  | .mdi b a => Sys2Proof.Machine.execMdi b a s
  | .and b a => Sys2Proof.Machine.execAnd b a s
  | .bor b a => Sys2Proof.Machine.execBor b a s
  | .xor b a => Sys2Proof.Machine.execXor b a s
  | .shr b a => Sys2Proof.Machine.execShr b a s
  | .asr b a => Sys2Proof.Machine.execAsr b a s
  | .shl b a => Sys2Proof.Machine.execShl b a s
  | .ifb b a => Sys2Proof.Machine.execIfb b a s
  | .ifc b a => Sys2Proof.Machine.execIfc b a s
  | .ife b a => Sys2Proof.Machine.execIfe b a s
  | .ifn b a => Sys2Proof.Machine.execIfn b a s
  | .ifg b a => Sys2Proof.Machine.execIfg b a s
  | .ifa b a => Sys2Proof.Machine.execIfa b a s
  | .ifl b a => Sys2Proof.Machine.execIfl b a s
  | .ifu b a => Sys2Proof.Machine.execIfu b a s
  | .adx b a => Sys2Proof.Machine.execAdx b a s
  | .sbx b a => Sys2Proof.Machine.execSbx b a s
  | .sti b a => Sys2Proof.Machine.execSti b a s
  | .std b a => Sys2Proof.Machine.execStd b a s
  | .jsr a => Sys2Proof.Machine.execJsr a s
  | .int a => Sys2Proof.Machine.execInt a s
  | .iag a => Sys2Proof.Machine.execIag a s
  | .ias a => Sys2Proof.Machine.execIas a s
  | .rfi a => Sys2Proof.Machine.execRfi a s
  | .iaq a => Sys2Proof.Machine.execIaq a s
  | .hwn a => Sys2Proof.Machine.execHwn a s
  | .hwq a => Sys2Proof.Machine.execHwq a s
  | .hwi a => Sys2Proof.Machine.execHwi a s
  | .log a => Sys2Proof.Machine.execLog a s
  | .brk a => Sys2Proof.Machine.execBrk a s
  | .hlt a => Sys2Proof.Machine.execHlt a s
  | .invalidBasic18 b a => Sys2Proof.Machine.execInvalidBasic18 b a s
  | .invalidBasic19 b a => Sys2Proof.Machine.execInvalidBasic19 b a s
  | .invalidBasic1C b a => Sys2Proof.Machine.execInvalidBasic1C b a s
  | .invalidBasic1D b a => Sys2Proof.Machine.execInvalidBasic1D b a s
  | .invalidSpecial00 a => Sys2Proof.Machine.execInvalidSpecial00 a s
  | .invalidSpecial02 a => Sys2Proof.Machine.execInvalidSpecial02 a s
  | .invalidSpecial03 a => Sys2Proof.Machine.execInvalidSpecial03 a s
  | .invalidSpecial04 a => Sys2Proof.Machine.execInvalidSpecial04 a s
  | .invalidSpecial05 a => Sys2Proof.Machine.execInvalidSpecial05 a s
  | .invalidSpecial06 a => Sys2Proof.Machine.execInvalidSpecial06 a s
  | .invalidSpecial07 a => Sys2Proof.Machine.execInvalidSpecial07 a s
  | .invalidSpecial0D a => Sys2Proof.Machine.execInvalidSpecial0D a s
  | .invalidSpecial0E a => Sys2Proof.Machine.execInvalidSpecial0E a s
  | .invalidSpecial0F a => Sys2Proof.Machine.execInvalidSpecial0F a s
  | .invalidSpecial16 a => Sys2Proof.Machine.execInvalidSpecial16 a s
  | .invalidSpecial17 a => Sys2Proof.Machine.execInvalidSpecial17 a s
  | .invalidSpecial18 a => Sys2Proof.Machine.execInvalidSpecial18 a s
  | .invalidSpecial19 a => Sys2Proof.Machine.execInvalidSpecial19 a s
  | .invalidSpecial1A a => Sys2Proof.Machine.execInvalidSpecial1A a s
  | .invalidSpecial1B a => Sys2Proof.Machine.execInvalidSpecial1B a s
  | .invalidSpecial1C a => Sys2Proof.Machine.execInvalidSpecial1C a s
  | .invalidSpecial1D a => Sys2Proof.Machine.execInvalidSpecial1D a s
  | .invalidSpecial1E a => Sys2Proof.Machine.execInvalidSpecial1E a s
  | .invalidSpecial1F a => Sys2Proof.Machine.execInvalidSpecial1F a s

end Sys2Proof.Machine
end

