-- ==== Sys2Proof/Machine/Cycle.lean ====
section
/-! DEFINITION. The instruction cycle (spec/40_instruction_cycle.md R120 to R124) and one iteration of the processor loop
(spec/70_reset_and_hazards.md R352). -/

namespace Sys2Proof.Machine

/-- R83, R121: the instruction at `pc`, read afresh from memory across the wrap of addresses. Reading has no side effect
(R62), so that the two following words are looked at shows nowhere. -/
def State.fetched (s : State) : Instr :=
  decodeAt s.config.specialNumbers (s.read s.pc) (s.read (s.pc + 1)) (s.read (s.pc + 2))

/-- R121: `pc` past every word of the instruction; and whether it was a conditional (log entry 27). -/
def State.afterFetch (s : State) : State :=
  { s with pc := s.pc + BitVec.ofNat 16 s.fetched.wordCount, guarding := s.fetched.isConditional }

/-- R120: fetch and decode; the skip test (R124); then the instruction, an unassigned encoding's meaning being the fatal
halt of R123. -/
def executeOne (s : State) : Result :=
  if s.skipping && !s.fetched.isConditional then .next { s.afterFetch with skipping := false }
  else exec s.fetched s.afterFetch

/-- R352: whether the `Tick` call goes on after an iteration. -/
inductive Signal
  | goOn
  | exit
deriving DecidableEq, Repr

/-- What an iteration answers. -/
abbrev Iterated := Host.Outcome (Signal × State) Fault Refusal

/-- R356: an executed instruction, inside its iteration. -/
def Result.goOn : Result → Iterated
  | .next s => .next (.goOn, s)
  | .fault r => .fault r
  | .refused r => .refused r

/-- R352 `Iteration()`: the running test (R357), one owed wait cycle (R353), the delivery attempt (R354), the halted test
(R355), then one instruction (R356). -/
def iteration (s : State) : Iterated :=
  if !s.running then .next (.exit, s)
  else if 0 < s.wait then .next (.goOn, { s with wait := s.wait - 1 })
  else if s.attemptDelivery.halted then .next (.exit, s.attemptDelivery)
  else (executeOne s.attemptDelivery).goOn

/-- The state an iteration leaves. -/
def Iterated.state : Iterated → Result
  | .next (_, s) => .next s
  | .fault r => .fault r
  | .refused r => .refused r

/-- The words of an instruction laid at an address and up; for `State.withFetchWord`, which marks nothing dirty. -/
def Memory.place (m : Memory) (addr : Word) : List Word → Memory
  | [] => m
  | w :: ws => Memory.place (Store.update 0 m addr.toNat w) (addr + 1) ws

/-- A state whose next iteration executes the instruction at `pc`: running, no cycle owed, not halted, no skip pending,
and delivery off where a queued message would otherwise be delivered first. -/
def State.readyToFetch (s : State) : State :=
  { s with running := true, wait := 0, halted := false, skipping := false, iqEnable := s.iqEnable && s.iq.isEmpty }

end Sys2Proof.Machine
end

