-- ==== Sys2Proof/Machine/Step.lean ====
section
/-! DEFINITION. The step of the machine: one loop iteration (spec/00_scope.md R14, spec/70_reset_and_hazards.md R352). -/

namespace Sys2Proof.Machine

/-- R14, R352: one iteration of the processor's loop. -/
def step (s : State) : Host.Outcome State Fault Refusal := (iteration s).state

/-- The state with an instruction of three words, the bits above `nbits` zero, stored at `pc`, and ready to fetch it: what
loading a program from outside and `Start` do (log entry 5). -/
def State.withFetchWord (s : State) (nbits w : Nat) : State :=
  let n := w % 2 ^ nbits
  { s.readyToFetch with
      mem := Memory.place s.mem s.pc [wordOfBits n 0, wordOfBits n 1, wordOfBits n 2] }

end Sys2Proof.Machine
end

