-- ==== Sys2Proof/Machine/HostOps.lean ====
section
/-! DEFINITION. What the host and the devices do to the machine from outside an iteration (spec/70_reset_and_hazards.md
R340 to R357, spec/60_exceptions.md R300 to R304): attach, Start, Stop, Reset, Tick, and the devices' own acts between two
`Tick` calls (spec/20_memory.md R85). -/

namespace Sys2Proof.Machine

/-- R300 `attach`: the device is appended to its parent's children. -/
def State.attach (s : State) (upstream : Upstream) (identity : Identity) (kind : DeviceKind) : Result :=
  if s.running then .refused .attachWhileRunning
  else
    let t := { s with devices := s.devices ++ [{ upstream, identity, kind }] }
    match upstream with
    | .processor => if s.deviceCount < Config.maxDevices then .next t else .refused .tooManyDevices
    | .device node => if node < s.devices.length then .next t else .refused .noSuchUpstream

/-- R341. -/
def State.start (s : State) : State := { s with running := true }.broadcast .start

/-- R342. -/
def State.stop (s : State) : State := { s with running := false }.broadcast .stop

/-- R343, before the broadcast: every register and flag, then the memory reset; `running` is not changed. -/
def State.clear (s : State) : State :=
  { s with regs := Regs.zero, pc := 0, sp := 0, ex := 0, ia := 0, iq := [], iqEnable := true, skipping := false,
           halted := false, wait := 0, leftover := 0, guarding := false }.memoryReset

/-- R343 `Reset`. -/
def State.hostReset (s : State) : State := s.clear.broadcast .reset

/-- R351: up to `k` iterations; the rest of the budget is discarded on an exit (R355). -/
def iterations : Nat → State → Result
  | 0, s => .next s
  | k + 1, s =>
    match iteration s with
    | .next (.goOn, t) => iterations k t
    | .next (.exit, t) => .next t
    | .fault r => .fault r
    | .refused r => .refused r

/-- R351 `Tick(n)`; R357: nothing on a processor that is not running. -/
def State.tick (s : State) (n : Nat) : Result :=
  if !s.running then .next s
  else
    let t := n + s.leftover
    iterations (t / s.config.rateDivisor) { s with leftover := t % s.config.rateDivisor }

/-- R310, R346: a ROM-class device's load command where it does not come by HWI. -/
def State.romCommand (s : State) (node : Nat) : Result :=
  match s.devices[node]? with
  | some { kind := .rom image, .. } => .next (s.loadRom image)
  | _ => .refused .noSuchDevice

/-- R14, R85, R340: what an agent other than the processor may do; each runs to completion before the next. -/
inductive HostAction
  | attach (upstream : Upstream) (identity : Identity) (kind : DeviceKind)
  | start
  | stop
  | reset
  | tick (n : Nat)
  /-- R85, R303: a device acts between two `Tick` calls. -/
  | deviceActs (node : Nat) (ops : List DeviceOp)
  | romCommand (node : Nat)
  | storageCommand (node : Nat) (kind : TransferKind) (sector : Nat) (base : Word)
  | storageBackground (node : Nat) (fetched : Block)
  | storageTick (node : Nat)
  | storageMedium (node : Nat) (medium : Option Nat)
deriving DecidableEq, Repr

/-- R340: one call on the block. -/
def hostStep (act : HostAction) (s : State) : Result :=
  match act with
  | .attach upstream identity kind => s.attach upstream identity kind
  | .start => .next s.start
  | .stop => .next s.stop
  | .reset => .next s.hostReset
  | .tick n => s.tick n
  | .deviceActs node ops => if node < s.devices.length then .next (s.deviceOps node ops) else .refused .noSuchDevice
  | .romCommand node => s.romCommand node
  | .storageCommand node kind sector base => s.storageCommand node kind sector base
  | .storageBackground node fetched => s.storageBackground node fetched
  | .storageTick node => s.storageTick node
  | .storageMedium node medium => s.storageMedium node medium

end Sys2Proof.Machine
end

