-- ==== Sys2Proof/Safety.lean ====
section
/-! DEFINITION. What statements about runs are about: the invariant of the machine, and the states in which it runs no
more. -/

namespace Sys2Proof.Machine

/-- R41, R305: a hub stands before its children in the collection, since a device is attached to a hub that is there. -/
def devicesWf (devices : List Device) : Bool :=
  (List.range devices.length).all fun k =>
    match devices[k]?.map Device.upstream with
    | some (.device parent) => decide (parent < k)
    | some .processor => true
    | none => true

/-- What fixes a device's behaviour (R44): its class, a ROM's image, a storage controller's settings. -/
inductive FixedKind
  | rom (image : List Word)
  | storage (settings : StorageSettings)
  | other
deriving DecidableEq, Repr

/-- R44: the part of a device's kind that no run changes. -/
def DeviceKind.fixed : DeviceKind → FixedKind
  | .rom image => .rom image
  | .storage c => .storage c.settings
  | .other _ => .other

/-- R41, R44: the part of a device that no run changes: its place, its identity, and what fixes its behaviour. -/
def Device.fixed (d : Device) : Upstream × Identity × FixedKind := (d.upstream, d.identity, d.kind.fixed)

/-- The three sparse tables are in canonical form, memory below 65536 (R60), flags and counts below 4096 (R39). -/
def State.tablesWf (s : State) : Bool :=
  Memory.wf s.mem && Store.wf true Config.regionCount s.dirty && Store.wf 0 Config.regionCount s.syncCount

/-- R72: "a region's sync-count is the number of live, still-registered subscriptions covering it". -/
def State.countsAgree (s : State) : Prop := ∀ r : Nat, s.syncOf r = s.liveSubscriptions r

/-- What every operation keeps: canonical tables, at most 256 messages (R30), the counts of R72, at most 65535 enumerable
devices (R251), hubs before their children, parameters in their ranges (R351, R97). -/
structure State.Inv (s : State) : Prop where
  tables : s.tablesWf = true
  queue : s.iq.length ≤ Config.queueCapacity
  counts : s.countsAgree
  devices : devicesWf s.devices = true
  deviceCount : s.deviceCount ≤ Config.maxDevices
  config : s.config.wf = true

/-- R357: a stopped or fatally halted machine, on which a step does nothing. -/
def State.frozen (s : State) : Prop := s.running = false

/-- R267: halted with no interrupt possible: nothing queued and none accepted, or delivery off. -/
def State.haltedForGood (s : State) : Prop :=
  s.halted = true ∧ ((s.ia = 0 ∧ s.iq = []) ∨ s.iqEnable = false)

/-- A run of `k` steps, as far as no step is refused. -/
def runSteps : Nat → State → Result
  | 0, s => .next s
  | k + 1, s =>
    match step s with
    | .next t => runSteps k t
    | .fault r => .fault r
    | .refused r => .refused r

/-- R346: the images of the ROM-class devices that a broadcast reaches, in the order it reaches them. -/
def State.romImages (s : State) : List (List Word) :=
  (broadcastOrder s.devices).filterMap fun node =>
    match s.devices[node]?.map Device.kind with
    | some (.rom image) => some image
    | _ => none

/-- R40, R301: a subscription record after `Reset`: unregistered if the broadcast reaches its owner. -/
def Subscription.afterReset (reached : List Nat) (u : Subscription) : Subscription :=
  if u.owner ∈ reached then { u with registered := false } else u

/-! ### What an instruction changes and what it leaves -/

/-- R255, R310, R314, R315: what the handler of the device at an index leaves of `s`, and the stated effect of the command:
`t` is the state after it, `mid` the state in which the command is obeyed. A device may do anything else that R255 allows. -/
structure HandlerEffect (s mid t : State) (node : Nat) (command : Option DeviceCommand) : Prop where
  sp : t.sp = s.sp
  ex : t.ex = s.ex
  ia : t.ia = s.ia
  iqEnable : t.iqEnable = s.iqEnable
  skipping : t.skipping = s.skipping
  halted : t.halted = s.halted
  running : t.running = s.running
  leftover : t.leftover = s.leftover
  config : t.config = s.config
  guarding : t.guarding = s.guarding
  iq : s.iq <+: t.iq
  wait : s.wait ≤ t.wait
  devices : t.devices.map Device.fixed = s.devices.map Device.fixed
  table : t.deviceTable = s.deviceTable
  others : ∀ k, k ≠ node → t.devices[k]? = s.devices[k]?
  draws : t.deviceDraws = s.deviceDraws + 1
  /-- R310, R346: a ROM's load command. -/
  load : ∀ (d : Device) (image : List Word), s.devices[node]? = some d → d.kind = .rom image → command = some .loadImage →
    t.pc = 0 ∧ ∀ addr v, image[addr.toNat]? = some v → t.read addr = v ∧ t.isDirty (regionOf addr) = true
  /-- R314: a transfer command that finds no medium: the error code, and no Busy state entered. -/
  noMedium : ∀ (c : Storage) (kind : TransferKind) (sector : Nat) (base : Word), s.storageAt node = some c →
    command = some (.transfer kind sector base) → c.medium = none →
    ∃ c', t.storageAt node = some c' ∧ c'.transfer = c.transfer ∧ c'.medium = none ∧
      c'.error = (match kind with | .reading => 2 | .writing => c.settings.noMediumOnWrite)
  /-- R315: a transfer command that an Idle controller takes: Busy with the service-time budget, a write's block captured,
  acceptance acknowledged where the device does so and a message is accepted. -/
  begun : ∀ (c : Storage) (kind : TransferKind) (sector : Nat) (base : Word), s.storageAt node = some c →
    command = some (.transfer kind sector base) → c.medium.isSome = true → c.transfer = none →
    ∃ c' m, t.storageAt node = some c' ∧ mid.storageAt node = some m ∧ c'.medium = c.medium ∧
      c'.transfer = some { kind, sector, window := base, remaining := c.settings.serviceTime, completed := false
                           block := match kind with | .reading => none | .writing => some (mid.window base) } ∧
      (c.settings.acknowledges = true → m.messages.acknowledge ∈ t.iq ∨ t.ia = 0 ∨ 256 ≤ t.iq.length)
  /-- R319: a transfer in flight is not cancelled by a command. -/
  busy : ∀ c : Storage, s.storageAt node = some c → c.transfer.isSome = true →
    ∃ c', t.storageAt node = some c' ∧ c'.transfer = c.transfer ∧ c'.medium = c.medium

/-- R125: `sp` after operand a is resolved: POP has moved it up. -/
def spAfterPop (a : Operand) (sp : Word) : Word := if a = .stack then sp + 1 else sp

/-- R126: `sp` after operand b is resolved: PUSH has moved it down. -/
def spAfterPush (b : Operand) (sp : Word) : Word := if b = .stack then sp - 1 else sp

/-- R126: the place operand b of a basic instruction names, as its meaning computes it: in the state after operand a is
resolved. -/
def State.target (s : State) (b a : Operand) : Loc := (s.popAdjust a).placeB b

/-- R127, R139 `vb`: the value at that place, before anything is written. -/
def State.valueB (s : State) (b a : Operand) : Word := ((s.popAdjust a).pushAdjust b).readLoc (s.target b a)

/-- What stands at the place `here` after a result, if there is one, went to the place `l`; `old` stood there before. -/
def landed (l : Loc) (result : Option Word) (here : Loc) (old : Word) : Word :=
  if l = here then result.getD old else old

/-- R134: EX after a result, if it went to EX, and the opcode's EX rule, if it has one. -/
def exAfter (order : ExDestOrder) (toEx exNew : Option Word) (old : Word) : Word :=
  match toEx, exNew, order with
  | none, none, _ => old
  | none, some e, _ => e
  | some v, none, _ => v
  | some _, some e, .exRuleWins => e
  | some v, some _, .resultWins => v

/-- The state `t` that a basic instruction leaves from `s`, every field of it: `result` goes to operand b's place (a literal
discards it), `exNew` is the opcode's EX, `skipping` becomes `skip`, and `cost` is charged with each extra word's; every
register, every cell of memory, every dirty flag and every other field is as before. -/
structure BasicEffect (s t : State) (b a : Operand) (result exNew : Option Word) (skip : Bool) (cost : Nat) : Prop where
  regs : ∀ r, t.reg r = landed (s.target b a) result (.reg r) (s.reg r)
  sp : t.sp = landed (s.target b a) result .sp (spAfterPush b (spAfterPop a s.sp))
  pc : t.pc = landed (s.target b a) result .pc s.pc
  ex : t.ex = exAfter s.config.exDestOrder (if s.target b a = .ex then result else none) exNew s.ex
  mem : ∀ addr, t.read addr = landed (s.target b a) result (.mem addr) (s.read addr)
  dirty : ∀ r, t.isDirty r = true ↔
    s.isDirty r = true ∨ ∃ addr, s.target b a = .mem addr ∧ result.isSome = true ∧ regionOf addr = r
  skipping : t.skipping = skip
  wait : t.wait = s.wait + cost + (a.extra.length + b.extra.length) * s.config.waitCost.extraWord
  ia : t.ia = s.ia
  iq : t.iq = s.iq
  iqEnable : t.iqEnable = s.iqEnable
  halted : t.halted = s.halted
  running : t.running = s.running
  leftover : t.leftover = s.leftover
  syncCount : t.syncCount = s.syncCount
  subs : t.subs = s.subs
  devices : t.devices = s.devices
  config : t.config = s.config
  deviceDraws : t.deviceDraws = s.deviceDraws
  guarding : t.guarding = s.guarding

/-- Memory and dirty flags of `t` against those of `s`: the cells `stored` gives a value hold it, every other cell is as
before, and exactly their regions are newly dirty (R63). -/
structure StoresOnly (s t : State) (stored : Word → Option Word) : Prop where
  mem : ∀ addr, t.read addr = (stored addr).getD (s.read addr)
  dirty : ∀ r, t.isDirty r = true ↔ s.isDirty r = true ∨ ∃ addr, (stored addr).isSome = true ∧ regionOf addr = r

/-- R135: `wait` after an executed special instruction. -/
def waitAfter (cost : Nat) (a : Operand) (s : State) : Nat :=
  s.wait + cost + a.extra.length * s.config.waitCost.extraWord

/-- The state `t` that IAG or HWN leaves from `s`, every field of it: `v` goes to operand a's place (R136), a literal discards
it, `cost` is charged with the extra word's, and everything else is as before. -/
structure WriteAEffect (s t : State) (a : Operand) (v : Word) (cost : Nat) : Prop where
  regs : ∀ r, t.reg r = landed (s.place a) (some v) (.reg r) (s.reg r)
  sp : t.sp = landed (s.place a) (some v) .sp (spAfterPop a s.sp)
  pc : t.pc = landed (s.place a) (some v) .pc s.pc
  ex : t.ex = landed (s.place a) (some v) .ex s.ex
  stores : StoresOnly s t (fun addr => if s.place a = .mem addr then some v else none)
  rest : t = { s with regs := t.regs, sp := t.sp, pc := t.pc, ex := t.ex, mem := t.mem, dirty := t.dirty,
                      wait := waitAfter cost a s }

/-- A state with another `WaitCost` table (R366). -/
def State.withCosts (s : State) (w : WaitCost) : State := { s with config := { s.config with waitCost := w } }

/-- R123: the unassigned encodings. -/
def unassigned (i : Instr) : Bool :=
  match i.fields with
  | .basic o _ _ => [0x18#5, 0x19#5, 0x1c#5, 0x1d#5].contains o
  | .special so _ =>
    !([0x01#5, 0x08#5, 0x09#5, 0x0a#5, 0x0b#5, 0x0c#5, 0x10#5, 0x11#5, 0x12#5, 0x13#5, 0x14#5, 0x15#5].contains so)

end Sys2Proof.Machine
end

