-- ==== Sys2Proof/Certificates/Slice0/Obligations.lean ====
section
/-! DEFINITION. The statements for the provers. A statement that rests on one of the spec's own decisions
(92_eei_decisions.md) or on what the spec took from general knowledge is 'derived' in OBLIGATIONS.json, and its docstring
names the decision; `BasicEffect`, `WriteAEffect` and `StoresOnly` (Safety.lean) spell out the frame. -/

open Sys2Proof Sys2Proof.Machine

/-! ### Encoding -/

/-- Decoding the words of any well-formed instruction gives it back. Derived: the numbers are decisions D1 to D3, the
order of the extra words D6. -/
def Obligations.DecodeOfEncodeIsTheInstruction : Prop :=
  ∀ (numbers : SpecialNumbers) (i : Instr) (rest : List Word), i.wf = true →
    decode numbers (encode numbers i ++ rest) = .ok (i, rest)

/-- Every word is one instruction: encoding what it decodes to gives its words back. Derived: the numbers are decisions
D1 to D3, the order of the extra words D6. -/
def Obligations.EncodeOfDecodeIsTheWords : Prop :=
  ∀ (numbers : SpecialNumbers) (w n1 n2 : Word),
    encode numbers (decodeAt numbers w n1 n2) = [w, n1, n2].take (lengthOfWord w)

/-- What the decoder gives is well-formed, for every word. Derived: the packed literals' numbers are decision D1. -/
def Obligations.DecodedInstructionIsWellFormed : Prop :=
  ∀ (numbers : SpecialNumbers) (w n1 n2 : Word), (decodeAt numbers w n1 n2).wf = true

/-- The length of an instruction is the length rule's function of its word. R92, with its fields written as quotients
and remainders of the word. -/
def Obligations.LengthIsAFunctionOfTheWord : Prop :=
  ∀ (numbers : SpecialNumbers) (w n1 n2 : Word),
    let extra (s : Nat) : Nat := if (0x10 ≤ s ∧ s ≤ 0x17) ∨ s = 0x1a ∨ s = 0x1e ∨ s = 0x1f then 1 else 0
    let n := (encode numbers (decodeAt numbers w n1 n2)).length
    n = 1 + extra (w.toNat / 1024) + (if w.toNat % 32 ≠ 0 then extra (w.toNat / 32 % 32) else 0) ∧
      1 ≤ n ∧ n ≤ 3 ∧ (w.toNat % 32 = 0 → n ≤ 2)

/-- Words written out in the spec decode to the instructions they stand for. Derived: the numbers are decisions D1 to
D3. A sanity statement on the spec's own words. -/
def Obligations.SpecWordsDecode : Prop :=
  let table := decodeAt SpecialNumbers.default
  table 0x7f81 0x1234 0 = .set .pc (.lit 0x1234) ∧
    table 0x7a22 0x3000 0x0002 = .add (.indOff .b 0x0002) (.abs 0x3000) ∧
    table 0xfc01 0 0 = .set (.reg .a) (.small 30) ∧
    table 0x002f 0 0 = .shl (.reg .b) (.reg .a) ∧
    table 0x8812 0 0 = .ife (.reg .a) (.small 1) ∧
    table 0x3dde 0 0 = .sti (.ind .i) (.ind .j) ∧
    table 0xc420 0 0 = .jsr (.small 0x10) ∧
    table 0x1a00 0 0 = .hwn (.reg .i) ∧
    table 0x86a0 0 0 = .hlt (.small 0) ∧
    table 0x0000 0 0 = .invalidSpecial00 (.reg .a)

/-! ### The instruction cycle and one iteration -/

/-- A step runs the instruction its memory decodes to. Derived: the order of an iteration's tests is decision D44, the
extra words' order D6; `guarding` is the model's own flag (log entry 27). -/
def Obligations.StepRunsDecodedInstruction : Prop :=
  ∀ (s : State) (i : Instr) (rest : List Word),
    s.running = true → s.wait = 0 → s.deliverable = false → s.halted = false →
    (s.skipping = false ∨ i.isConditional = true) →
    decode s.config.specialNumbers [s.read s.pc, s.read (s.pc + 1), s.read (s.pc + 2)] = .ok (i, rest) →
    step s = exec i { s with pc := s.pc + BitVec.ofNat 16 i.wordCount, guarding := i.isConditional }

/-- While skipping, a non-conditional is passed over and clears the flag; a conditional executes. Derived: R124, with
the fetch of R121 around it; what becomes of `guarding`, the model's own flag and no state of the machine, is the
model's choice (DESIGN CHOICE, log entry 27). -/
def Obligations.SkippingPassesOverNonConditionals : Prop :=
  ∀ s : State, s.running = true → s.wait = 0 → s.halted = false → s.skipping = true →
    let i := decodeAt s.config.specialNumbers (s.read s.pc) (s.read (s.pc + 1)) (s.read (s.pc + 2))
    let past := s.pc + BitVec.ofNat 16 (encode s.config.specialNumbers i).length
    (i.isConditional = false → step s = .next { s with pc := past, skipping := false, guarding := false }) ∧
      (i.isConditional = true → step s = exec i { s with pc := past, guarding := true })

/-- An iteration that owes wait cycles pays one and does nothing else. Derived: one cycle an iteration is decision D22. -/
def Obligations.StepPaysOneWaitCycle : Prop :=
  ∀ s : State, s.running = true → 0 < s.wait → step s = .next { s with wait := s.wait - 1 }

/-- A machine that is not running changes in no step and in no Tick. Derived: decisions D23 and D44. -/
def Obligations.StoppedMachineIsFrozen : Prop :=
  ∀ s : State, s.frozen → step s = .next s ∧ ∀ n, s.tick n = .next s

/-- A halted machine does nothing in a step unless an interrupt is delivered. Derived: decision D24. -/
def Obligations.HaltedMachineWaitsForDelivery : Prop :=
  ∀ s : State, s.running = true → s.wait = 0 → s.halted = true →
    (s.deliverable = false → step s = .next s) ∧
      (s.haltedForGood → ∀ n, s.tick n = .next { s with leftover := (n + s.leftover) % s.config.rateDivisor })

/-- Delivery: what is dequeued, saved, set and left alone. Derived: the pushes' order is decision D17, ia = 0 D18, no
charge D37. -/
def Obligations.DeliveryEntersTheHandler : Prop :=
  ∀ (s : State) (m : Word) (rest : List Word), s.tablesWf = true → s.iq = m :: rest →
    s.deliver = { s with regs := s.regs.set .a m, pc := s.ia, sp := s.sp - 2, iq := rest, iqEnable := false,
                         halted := false, mem := s.deliver.mem, dirty := s.deliver.dirty } ∧
      StoresOnly s s.deliver (fun addr =>
        if addr = s.sp - 1 then some s.pc else if addr = s.sp - 2 then some (s.reg .a) else none)

/-- An interrupt is delivered when and only when enabled, not skipping, queued and not inside a unit, in the iteration
of the handler's first instruction. Derived: log entry 27 (the parameter `interruptUnit`: R290 and R352 against R222
and R296), decision D37, and D33 for what a device may do to the queue. -/
def Obligations.DeliveryPrecedesTheInstruction : Prop :=
  ∀ s : State, s.running = true → s.wait = 0 →
    let may := s.iqEnable = true ∧ s.skipping = false ∧ s.iq ≠ [] ∧
      ¬ (s.config.interruptUnit = .wholeUnit ∧ s.guarding = true)
    (may → step s = step s.deliver) ∧
      (¬ may → ∀ t, step s = .next t → s.iq <+: t.iq) ∧
      (¬ may → s.config.interruptUnit = .wholeUnit → s.halted = false → s.fetched.isConditional = true →
        ∀ t, step s = .next t → t.deliverable = false)

/-- An unassigned encoding, executed, stops the machine for good and changes nothing else. Derived: decisions D2, D3,
D23 and D27; `guarding` is the model's own flag (log entry 27). -/
def Obligations.UnassignedEncodingEndsTheRun : Prop :=
  ∀ s : State, s.running = true → s.wait = 0 → s.deliverable = false → s.halted = false → s.skipping = false →
    unassigned s.fetched = true →
    ∃ t, step s = .next t ∧
      t = { s with pc := s.pc + BitVec.ofNat 16 (lengthOfWord (s.read s.pc)), running := false, guarding := false } ∧
      step t = .next t ∧ ∀ n, t.tick n = .next t

/-- RFI straight after delivery restores registers, pc and sp and enables delivery. Derived: decision D17. -/
def Obligations.DeliveryThenRfiRestores : Prop :=
  ∀ s : State, s.tablesWf = true → s.deliverable = true →
    ∃ t, exec (.rfi (.small 0)) s.deliver = .next t ∧ t.regs = s.regs ∧ t.pc = s.pc ∧ t.sp = s.sp ∧ t.ex = s.ex ∧
      t.ia = s.ia ∧ t.skipping = s.skipping ∧ t.iqEnable = true ∧ t.iq = s.iq.tail

/-! ### The whole machine -/

/-- The machine after Reset, and at creation, satisfies the invariant. Derived: the flags' values are decision D20. -/
def Obligations.ResetSatisfiesTheInvariant : Prop :=
  State.reset.Inv ∧ State.creation.Inv

/-- Every step keeps the invariant. Derived: what a device may do in HWI is decision D33, the regions a subscription
covers D28. -/
def Obligations.StepKeepsTheInvariant : Prop :=
  ∀ s t : State, s.Inv → step s = .next t → t.Inv

/-- Every call of the host and every act of a device keeps the invariant. Derived: decisions D28, D29 and D33; the
storage controller is outside the block (R6, log entry 23); the acts between two `Tick` calls and the commands
outside HWI are log entries 24 and 29 (DESIGN CHOICE). -/
def Obligations.HostActionsKeepTheInvariant : Prop :=
  ∀ (act : HostAction) (s t : State), s.Inv → hostStep act s = .next t → t.Inv

/-- No step changes a parameter, the device table or what a device is. Derived: decision D33. -/
def Obligations.ParametersAndDeviceTableAreConstant : Prop :=
  ∀ s t : State, step s = .next t →
    t.config = s.config ∧ t.deviceTable = s.deviceTable ∧ t.devices.map Device.fixed = s.devices.map Device.fixed

/-- Which instructions change skipping, ia, iq_enable, halted and running. Derived: decision D33. -/
def Obligations.OnlyTheNamedInstructionsWriteControlState : Prop :=
  ∀ (i : Instr) (s t : State), exec i s = .next t →
    (t.skipping ≠ s.skipping → i.isConditional = true ∧ t.skipping = true) ∧
      (t.ia ≠ s.ia → ∃ a, i = .ias a) ∧
      (t.iqEnable ≠ s.iqEnable → (∃ a, i = .rfi a) ∨ ∃ a, i = .iaq a) ∧
      (t.halted ≠ s.halted → (∃ a, i = .hlt a) ∧ t.halted = true) ∧
      (t.running ≠ s.running → unassigned i = true ∧ t.running = false) ∧
      t.leftover = s.leftover

/-- Which instructions change EX. Derived: decision D11, and for HWI decision D33 (log entry 9). -/
def Obligations.OnlyTheNamedInstructionsWriteEx : Prop :=
  ∀ (i : Instr) (s t : State), exec i s = .next t → t.ex ≠ s.ex →
    match i with
    | .add _ _ | .sub _ _ | .mul _ _ | .mli _ _ | .div _ _ | .dvi _ _ | .adx _ _ | .sbx _ _ | .shr _ _ | .asr _ _
    | .shl _ _ => True
    | .mod b a | .mdi b a => s.valueA a = 0 ∨ b = .ex
    | .set b _ | .and b _ | .bor b _ | .xor b _ | .sti b _ | .std b _ => b = .ex
    | .iag a | .hwn a => a = .ex
    | _ => False

/-- Every instruction answers a next state but a basic one with both selectors 0x18. Derived: decision D8. -/
def Obligations.EveryInstructionCompletes : Prop :=
  ∀ (i : Instr) (s : State),
    (unassigned i = false ∧ i.operands = .basic .stack .stack → exec i s = .refused .bothStackOperands) ∧
      (¬ (unassigned i = false ∧ i.operands = .basic .stack .stack) → ∃ t, exec i s = .next t)

/-- No result depends on the WaitCost table. Derived: the table is decision D25. -/
def Obligations.WaitCostsDecideNothingButWait : Prop :=
  ∀ (i : Instr) (s t : State) (w : WaitCost), (∀ a, i ≠ .hwi a) → exec i s = .next t →
    ∃ n, exec i (s.withCosts w) = .next { t.withCosts w with wait := n }

/-! ### Memory, subscriptions and the interrupt queue -/

/-- A write sets its cell and its region's dirty flag and nothing else. R63. -/
def Obligations.WriteThenReadGivesTheWord : Prop :=
  ∀ (s : State) (addr v : Word), s.tablesWf = true →
    StoresOnly s (s.write addr v) (fun x => if x = addr then some v else none) ∧
      (s.write addr v).isDirty (addr >>> 4).toNat = true ∧
      s.write addr v = { s with mem := (s.write addr v).mem, dirty := (s.write addr v).dirty }

/-- load(base, words) writes its words from base, wrapping, and no other cell. Derived: decision D30. -/
def Obligations.LoadWritesItsWords : Prop :=
  ∀ (s : State) (base : Word) (words : List Word), s.tablesWf = true →
    StoresOnly s (s.load base words) (fun addr => words[(addr - base).toNat]?)

/-- Registering counts each covered region once and marks it dirty; twice is a no-op. R69; the covered regions are
R68's. -/
def Obligations.RegisterCountsCoveredRegions : Prop :=
  ∀ (s : State) (k : Nat) (u : Subscription), s.tablesWf = true → s.subs[k]? = some u →
    let t := s.register k
    (u.registered = true → t = s) ∧
      (u.registered = false →
        (∀ r, t.syncOf r = s.syncOf r + (if u.covers r then 1 else 0)) ∧
        (∀ r, t.isDirty r = (s.isDirty r || u.covers r)) ∧
        t.subs = s.subs.set k { u with registered := true } ∧
        t = { s with syncCount := t.syncCount, dirty := t.dirty, subs := t.subs })

/-- Unregistering takes the counts back to their prior values; twice is a no-op. R70, with its testable property; the
counts' agreement (R72) is a premise. -/
def Obligations.UnregisterUndoesRegisterSync : Prop :=
  (∀ (s : State) (k : Nat) (u : Subscription), s.tablesWf = true → s.countsAgree → s.subs[k]? = some u →
    let t := s.unregister k
    (u.registered = false → t = s) ∧
      (u.registered = true →
        (∀ r, t.syncOf r + (if u.covers r then 1 else 0) = s.syncOf r) ∧
        t.subs = s.subs.set k { u with registered := false } ∧
        t = { s with syncCount := t.syncCount, subs := t.subs })) ∧
    ∀ (s : State) (owner : Nat) (base : Word) (length : Nat), s.tablesWf = true →
      let t := (s.registerSync owner base length).unregister s.subs.length
      (∀ r, t.syncOf r = s.syncOf r) ∧ t.unregister s.subs.length = t

/-- Raise queues a message when ia is not 0 and the queue is not full, and is otherwise a silent drop. R286. -/
def Obligations.RaiseQueuesOrDrops : Prop :=
  ∀ (s : State) (m : Word),
    (s.ia ≠ 0 ∧ s.iq.length < 256 → s.raise m = { s with iq := s.iq ++ [m] }) ∧
      (s.ia = 0 ∨ 256 ≤ s.iq.length → s.raise m = s)

/-- Raising more than 256 messages keeps the first 256 in order. Derived from R285's testable property and R286. -/
def Obligations.QueueSaturatesAt256 : Prop :=
  ∀ (s : State) (ms : List Word),
    (s.ia ≠ 0 → s.iq = [] → (ms.foldl State.raise s) = { s with iq := ms.take 256 }) ∧
      (s.ia = 0 → ms.foldl State.raise s = s)

/-! ### Reset, the host and the devices -/

/-- What Reset leaves, whatever the devices, and what Start and Stop change. Derived: decisions D20, D21, D29 and D43,
log entry 28, and for the model's own flag `guarding`, false after Reset, log entry 27. -/
def Obligations.ResetLeavesTheStatedValues : Prop :=
  (∀ s : State,
    let t := s.hostReset
    t = { State.reset with running := s.running, mem := t.mem, syncCount := t.syncCount, subs := t.subs,
                           devices := t.devices, config := s.config, deviceDraws := t.deviceDraws } ∧
      t.devices.map Device.fixed = s.devices.map Device.fixed ∧
      t.subs = s.subs.map (Subscription.afterReset (broadcastOrder s.devices)) ∧
      (s.tablesWf = true → s.countsAgree → t.countsAgree) ∧
      ((∀ d ∈ s.devices, ∀ image, d.kind ≠ .rom image) → t.mem = []) ∧
      (s.devices = [] → t.syncCount = s.syncCount ∧ t.subs = s.subs ∧ t.devices = [] ∧ t.deviceDraws = s.deviceDraws)) ∧
    State.creation.hostReset = State.reset ∧
    ∀ s : State,
      s.start = { s with running := true, devices := s.start.devices, deviceDraws := s.start.deviceDraws } ∧
        s.start.devices.map Device.fixed = s.devices.map Device.fixed ∧
        s.stop = { s with running := false, devices := s.stop.devices, deviceDraws := s.stop.deviceDraws } ∧
        s.stop.devices.map Device.fixed = s.devices.map Device.fixed

/-- Reset leaves memory with the ROM images laid over one another from address 0, zero elsewhere; a ROM's load command
loads its image. Derived: decisions D21, D29, D30 and D35; the order of the broadcast, a device before its children,
is the model's (DEDUCED, log entry 22), and a load command outside HWI is the model's choice (DESIGN CHOICE, log
entry 29). -/
def Obligations.ResetLoadsTheRom : Prop :=
  (∀ (s : State) (addr : Word), s.tablesWf = true →
    s.hostReset.read addr = s.romImages.foldl (fun word image => image[addr.toNat]?.getD word) 0) ∧
    (∀ (s : State) (id : Identity) (image : List Word), s.tablesWf = true →
      s.devices = [{ upstream := .processor, identity := id, kind := .rom image }] →
      let t := s.hostReset
      t.regs = Regs.zero ∧ t.pc = 0 ∧ t.sp = 0 ∧ t.ex = 0 ∧ t.ia = 0 ∧ t.running = s.running ∧
        (∀ addr, t.read addr = image[addr.toNat]?.getD 0) ∧ (∀ r, t.isDirty r = true)) ∧
    ∀ (s : State) (node : Nat) (d : Device) (image : List Word), s.tablesWf = true →
      s.devices[node]? = some d → d.kind = .rom image →
      ∃ u, hostStep (.romCommand node) s = .next u ∧ u = { s with pc := 0, mem := u.mem, dirty := u.dirty } ∧
        StoresOnly s u (fun addr => image[addr.toNat]?)

/-- Attaching a device to the processor gives it the next index and changes nothing else. Derived: decision D31 and log
entry 11. -/
def Obligations.AttachGivesTheNextIndex : Prop :=
  ∀ (s : State) (id : Identity) (kind : DeviceKind), s.running = false → s.deviceCount < 65535 →
    ∃ t, s.attach .processor id kind = .next t ∧
      t = { s with devices := s.devices ++ [{ upstream := .processor, identity := id, kind := kind }] } ∧
      t.deviceTable = s.deviceTable ++ [s.devices.length] ∧ t.deviceCount = s.deviceCount + 1

/-- Tick runs (n + leftover) div RATE_DIVISOR iterations and carries the remainder to the next call. Derived: decisions
D24, D33 and D42. -/
def Obligations.TickCarriesTheRemainder : Prop :=
  ∀ (s : State) (n : Nat), s.running = true →
    s.tick n = runSteps ((n + s.leftover) / s.config.rateDivisor)
        { s with leftover := (n + s.leftover) % s.config.rateDivisor } ∧
      ∀ t, s.tick n = .next t → t.leftover = (n + s.leftover) % s.config.rateDivisor ∧
        (1 ≤ s.config.rateDivisor → t.leftover < t.config.rateDivisor)

/-- A storage read command without a medium sets error code 2 and enters no Busy state. Derived: the device is recorded
by the spec as an example of the device contract; what a Busy controller does is log entry 23, a command outside HWI
log entry 29 (both DESIGN CHOICE). -/
def Obligations.StorageReadWithoutMediumReportsError2 : Prop :=
  ∀ (s : State) (node sector : Nat) (base : Word) (c : Storage),
    s.storageAt node = some c → c.medium = none →
    ∃ t, s.storageCommand node .reading sector base = .next t ∧ t.storageAt node = some { c with error := 2 } ∧
      t = { s with devices := t.devices }

/-! ### Move and arithmetic -/

/-- SET: the result, every other effect and the frame. Derived: decision D11. -/
def Obligations.SetMovesOperandA : Prop :=
  ∀ (b a : Operand) (s : State), bothStack b a = false → s.tablesWf = true →
    let va := s.valueA a
    ∃ t, exec (.set b a) s = .next t ∧
        BasicEffect s t b a (some va) none s.skipping s.config.waitCost.set

/-- ADD: result, EX and frame. R162. -/
def Obligations.AddWritesSumAndCarry : Prop :=
  (∀ b a, (Instr.add b a).fields = .basic 0x02#5 b a) ∧ WaitCost.default.add = 1 ∧
  ∀ (b a : Operand) (s : State), bothStack b a = false → s.tablesWf = true →
    let vb := s.valueB b a
    let va := s.valueA a
    ∃ t, exec (.add b a) s = .next t ∧
        BasicEffect s t b a (some (vb + va)) (some (if vb.toNat + va.toNat > 0xFFFF then 1 else 0)) s.skipping s.config.waitCost.add

/-- SUB: result, EX and frame. R163. -/
def Obligations.SubWritesDifferenceAndBorrow : Prop :=
  (∀ b a, (Instr.sub b a).fields = .basic 0x03#5 b a) ∧ WaitCost.default.sub = 1 ∧
  ∀ (b a : Operand) (s : State), bothStack b a = false → s.tablesWf = true →
    let vb := s.valueB b a
    let va := s.valueA a
    ∃ t, exec (.sub b a) s = .next t ∧
        BasicEffect s t b a (some (vb - va)) (some (if vb.toNat < va.toNat then 0xFFFF else 0)) s.skipping s.config.waitCost.sub

/-- MUL: low word, high word and frame. R164, the product as a 32-bit bit vector. -/
def Obligations.MulWritesUnsignedProduct : Prop :=
  (∀ b a, (Instr.mul b a).fields = .basic 0x04#5 b a) ∧ WaitCost.default.mul = 2 ∧
  ∀ (b a : Operand) (s : State), bothStack b a = false → s.tablesWf = true →
    let vb := s.valueB b a
    let va := s.valueA a
    let p := vb.setWidth 32 * va.setWidth 32
    ∃ t, exec (.mul b a) s = .next t ∧
        BasicEffect s t b a (some (p.extractLsb' 0 16)) (some (p.extractLsb' 16 16)) s.skipping s.config.waitCost.mul

/-- MLI: low word, high word and frame. R165, the product as a 32-bit bit vector. -/
def Obligations.MliWritesSignedProduct : Prop :=
  (∀ b a, (Instr.mli b a).fields = .basic 0x05#5 b a) ∧ WaitCost.default.mli = 2 ∧
  ∀ (b a : Operand) (s : State), bothStack b a = false → s.tablesWf = true →
    let vb := s.valueB b a
    let va := s.valueA a
    let p := vb.signExtend 32 * va.signExtend 32
    ∃ t, exec (.mli b a) s = .next t ∧
        BasicEffect s t b a (some (p.extractLsb' 0 16)) (some (p.extractLsb' 16 16)) s.skipping s.config.waitCost.mli

/-- DIV: quotient, fraction word, division by zero and frame. Derived: EX for a non-zero divisor is decision D11. -/
def Obligations.DivWritesQuotientAndFraction : Prop :=
  ∀ (b a : Operand) (s : State), bothStack b a = false → s.tablesWf = true →
    let vb := s.valueB b a
    let va := s.valueA a
    ∃ t, exec (.div b a) s = .next t ∧
        BasicEffect s t b a (some (vb / va)) (some (if va = 0 then 0 else BitVec.ofNat 16 (vb.toNat * 65536 / va.toNat))) s.skipping s.config.waitCost.div

/-- DVI: signed quotient, fraction word, division by zero and frame. Derived: decisions D11 and D12. -/
def Obligations.DviWritesSignedQuotient : Prop :=
  ∀ (b a : Operand) (s : State), bothStack b a = false → s.tablesWf = true →
    let vb := s.valueB b a
    let va := s.valueA a
    ∃ t, exec (.dvi b a) s = .next t ∧
        BasicEffect s t b a (some (vb.sdiv va)) (some (if va = 0 then 0 else BitVec.ofInt 16 ((vb.toInt * 65536).tdiv va.toInt))) s.skipping s.config.waitCost.dvi

/-- MOD and MDI: remainder, EX, division by zero and frame. Derived: decisions D11, D12 and D40. -/
def Obligations.ModAndMdiWriteTheRemainder : Prop :=
  ∀ (b a : Operand) (s : State), bothStack b a = false → s.tablesWf = true →
    let vb := s.valueB b a
    let va := s.valueA a
    let exNew := if va = 0 ∧ s.config.modZeroWritesEx = true then some 0 else none
    (∃ t, exec (.mod b a) s = .next t ∧
        BasicEffect s t b a (some (if va = 0 then 0 else vb % va)) exNew s.skipping s.config.waitCost.mod) ∧
      (∃ t, exec (.mdi b a) s = .next t ∧
        BasicEffect s t b a (some (if va = 0 then 0 else vb.srem va)) exNew s.skipping s.config.waitCost.mdi)

/-- ADX and SBX: result, EX and frame. Derived: decision D11; both values of the parameter are covered. -/
def Obligations.AdxAndSbxAddEx : Prop :=
  ∀ (b a : Operand) (s : State), bothStack b a = false → s.tablesWf = true →
    let vb := s.valueB b a
    let va := s.valueA a
    let carry : Int := if s.config.adxSbxExSigned then s.ex.toInt else s.ex.toNat
    let sum : Int := vb.toNat + va.toNat + carry
    let difference : Int := vb.toNat - va.toNat + carry
    (∃ t, exec (.adx b a) s = .next t ∧
        BasicEffect s t b a (some (vb + va + s.ex)) (some (if sum > 0xFFFF then 1 else 0)) s.skipping s.config.waitCost.adx) ∧
      (∃ t, exec (.sbx b a) s = .next t ∧
        BasicEffect s t b a (some (vb - va + s.ex)) (some (if difference < 0 then 0xFFFF else if difference > 0xFFFF then 1 else 0)) s.skipping s.config.waitCost.sbx)

/-- STI and STD: the move, then both cursors, and frame. Derived: decision D4. -/
def Obligations.StiAndStdMoveThenStep : Prop :=
  ∀ (b a : Operand) (s : State), bothStack b a = false → s.tablesWf = true →
    let va := s.valueA a
    (∃ u, BasicEffect s u b a (some va) none s.skipping s.config.waitCost.sti ∧
        exec (.sti b a) s = .next ((u.setReg .i (u.reg .i + 1)).setReg .j (u.reg .j + 1))) ∧
      (∃ u, BasicEffect s u b a (some va) none s.skipping s.config.waitCost.std ∧
        exec (.std b a) s = .next ((u.setReg .i (u.reg .i - 1)).setReg .j (u.reg .j - 1)))

/-! ### Logic and shifts -/

/-- AND, BOR and XOR: result and frame. Derived: decision D11. -/
def Obligations.BitwiseResults : Prop :=
  ∀ (b a : Operand) (s : State), bothStack b a = false → s.tablesWf = true →
    let vb := s.valueB b a
    let va := s.valueA a
    (∃ t, exec (.and b a) s = .next t ∧
        BasicEffect s t b a (some (vb &&& va)) none s.skipping s.config.waitCost.and) ∧
      (∃ t, exec (.bor b a) s = .next t ∧
        BasicEffect s t b a (some (vb ||| va)) none s.skipping s.config.waitCost.bor) ∧
      (∃ t, exec (.xor b a) s = .next t ∧
        BasicEffect s t b a (some (vb ^^^ va)) none s.skipping s.config.waitCost.xor)

/-- SHR and SHL: result and EX are the words of a 32-bit shift, for every count, and frame. Derived: decision D11. -/
def Obligations.ShiftsSplitA32BitValue : Prop :=
  ∀ (b a : Operand) (s : State), bothStack b a = false → s.tablesWf = true →
    let vb := s.valueB b a
    let va := s.valueA a
    let right := (vb ++ 0#16 : BitVec 32) >>> va.toNat
    let left := vb.setWidth 32 <<< va.toNat
    (∃ t, exec (.shr b a) s = .next t ∧
        BasicEffect s t b a (some (right.extractLsb' 16 16)) (some (right.extractLsb' 0 16)) s.skipping s.config.waitCost.shr) ∧
      (∃ t, exec (.shl b a) s = .next t ∧
        BasicEffect s t b a (some (left.extractLsb' 0 16)) (some (left.extractLsb' 16 16)) s.skipping s.config.waitCost.shl)

/-- ASR: signed shift for every count, EX for counts to 16, and frame. Derived: decision D11. -/
def Obligations.AsrFillsWithTheSign : Prop :=
  ∀ (b a : Operand) (s : State), bothStack b a = false → s.tablesWf = true →
    let vb := s.valueB b a
    let va := s.valueA a
    ∃ e : Word, (va.toNat ≤ 16 → e = ((vb ++ 0#16 : BitVec 32) >>> va.toNat).extractLsb' 0 16) ∧
      ∃ t, exec (.asr b a) s = .next t ∧
        BasicEffect s t b a (some (vb.sshiftRight va.toNat)) (some e) s.skipping s.config.waitCost.asr

/-! ### Conditionals -/

/-- IFB, IFC, IFE and IFN: skipping, and frame. Derived: decisions D11 and D14. -/
def Obligations.BitAndEqualityConditionsSetSkipping : Prop :=
  ∀ (b a : Operand) (s : State), bothStack b a = false → s.tablesWf = true →
    let vb := s.valueB b a
    let va := s.valueA a
    (∃ t, exec (.ifb b a) s = .next t ∧
        BasicEffect s t b a none none (s.skipping || !(vb &&& va != 0)) s.config.waitCost.ifb) ∧
      (∃ t, exec (.ifc b a) s = .next t ∧
        BasicEffect s t b a none none (s.skipping || !(vb &&& va == 0)) s.config.waitCost.ifc) ∧
      (∃ t, exec (.ife b a) s = .next t ∧
        BasicEffect s t b a none none (s.skipping || !(vb == va)) s.config.waitCost.ife) ∧
      (∃ t, exec (.ifn b a) s = .next t ∧
        BasicEffect s t b a none none (s.skipping || !(vb != va)) s.config.waitCost.ifn)

/-- IFG, IFA, IFL and IFU: skipping, and frame. Derived: decisions D11 and D14. -/
def Obligations.OrderConditionsSetSkipping : Prop :=
  ∀ (b a : Operand) (s : State), bothStack b a = false → s.tablesWf = true →
    let vb := s.valueB b a
    let va := s.valueA a
    (∃ t, exec (.ifg b a) s = .next t ∧
        BasicEffect s t b a none none (s.skipping || !va.ult vb) s.config.waitCost.ifg) ∧
      (∃ t, exec (.ifa b a) s = .next t ∧
        BasicEffect s t b a none none (s.skipping || !va.slt vb) s.config.waitCost.ifa) ∧
      (∃ t, exec (.ifl b a) s = .next t ∧
        BasicEffect s t b a none none (s.skipping || !vb.ult va) s.config.waitCost.ifl) ∧
      (∃ t, exec (.ifu b a) s = .next t ∧
        BasicEffect s t b a none none (s.skipping || !vb.slt va) s.config.waitCost.ifu)

/-! ### Special instructions -/

/-- JSR: the return address pushed, the jump, and frame. R231; pc on entry is past the JSR's words (R23). -/
def Obligations.JsrPushesAndJumps : Prop :=
  (∀ a, (Instr.jsr a).fields = .special 0x01#5 a) ∧ WaitCost.default.jsr = 2 ∧
  ∀ (a : Operand) (s : State), s.tablesWf = true →
    ∃ t, exec (.jsr a) s = .next t ∧
      t = { s with pc := s.valueA a, sp := spAfterPop a s.sp - 1, mem := t.mem, dirty := t.dirty,
                   wait := waitAfter s.config.waitCost.jsr a s } ∧
      StoresOnly s t (fun addr => if addr = spAfterPop a s.sp - 1 then some s.pc else none)

/-- INT: the message is queued or dropped, and frame. Derived: decision D38. -/
def Obligations.IntRaisesItsOperand : Prop :=
  ∀ (a : Operand) (s : State),
    exec (.int a) s = .next { s with
      sp := spAfterPop a s.sp,
      iq := if s.ia ≠ 0 ∧ s.iq.length < 256 then s.iq ++ [s.valueA a] else s.iq,
      wait := waitAfter s.config.waitCost.int a s }

/-- IAG: ia goes to its operand's place, and frame. R233. -/
def Obligations.IagStoresIa : Prop :=
  (∀ a, (Instr.iag a).fields = .special 0x09#5 a) ∧ WaitCost.default.iag = 0 ∧
  ∀ (a : Operand) (s : State), s.tablesWf = true →
    ∃ t, exec (.iag a) s = .next t ∧ WriteAEffect s t a s.ia s.config.waitCost.iag

/-- IAS and IAQ: the one register or flag each writes, and frame. Derived: decision D16 for IAQ. -/
def Obligations.IasSetsIaAndIaqSetsEnable : Prop :=
  ∀ (a : Operand) (s : State),
    exec (.ias a) s = .next { s with
      sp := spAfterPop a s.sp, ia := s.valueA a, wait := waitAfter s.config.waitCost.ias a s } ∧
      exec (.iaq a) s = .next { s with
        sp := spAfterPop a s.sp, iqEnable := decide (s.valueA a = 0), wait := waitAfter s.config.waitCost.iaq a s }

/-- RFI: x[0], then pc, popped, delivery enabled, and frame. Derived: decisions D17 and D19. -/
def Obligations.RfiRestoresFromTheStack : Prop :=
  ∀ (a : Operand) (s : State),
    let top := spAfterPop a s.sp
    exec (.rfi a) s = .next { s with
      iqEnable := true, regs := s.regs.set .a (s.read top), pc := s.read (top + 1), sp := top + 2,
      wait := waitAfter s.config.waitCost.rfi a s }

/-- HWN: the number of devices goes to its operand's place, and frame. Derived: decision D31. -/
def Obligations.HwnStoresTheDeviceCount : Prop :=
  ∀ (a : Operand) (s : State), s.tablesWf = true → s.deviceCount ≤ 65535 →
    ∃ (t : State) (n : Word), exec (.hwn a) s = .next t ∧ n.toNat = s.deviceTable.length ∧
      WriteAEffect s t a n s.config.waitCost.hwn

/-- HWQ in range: the five identity words in A, B, C, X, Y, and frame. Derived: decision D32. -/
def Obligations.HwqShowsTheIdentity : Prop :=
  ∀ (a : Operand) (s : State) (k : Nat) (d : Device),
    s.deviceTable[(s.valueA a).toNat]? = some k → s.devices[k]? = some d →
    exec (.hwq a) s = .next { s with
      regs := { s.regs with
        a := d.identity.deviceId.setWidth 16, b := (d.identity.deviceId >>> 16).setWidth 16, c := d.identity.version,
        x := d.identity.manufacturerId.setWidth 16, y := (d.identity.manufacturerId >>> 16).setWidth 16 },
      sp := spAfterPop a s.sp, wait := waitAfter s.config.waitCost.hwq a s }

/-- HWI in range: the device's handler runs, with the stated effect of a ROM's or a storage controller's command, within
what a device may do. Derived: decision D33; the command and the acts beside it are free values (log entries 9, 23
and 29). -/
def Obligations.HwiRunsTheDevice : Prop :=
  ∀ (a : Operand) (s : State) (k : Nat), s.tablesWf = true → s.deviceTable[(s.valueA a).toNat]? = some k →
    let s0 := { s with sp := spAfterPop a s.sp }
    (∃ t, t = s0.runHandler k (Config.deviceCommand k s0) (Config.deviceResponse k s0) (Config.deviceFollowUp k s0) ∧
      exec (.hwi a) s = .next { t with wait := waitAfter s.config.waitCost.hwi a t }) ∧
      ∀ (command : Option DeviceCommand) (before after : List DeviceOp),
        HandlerEffect s0 ({ s0 with deviceDraws := s.deviceDraws + 1 }.deviceOps k before)
          (s0.runHandler k command before after) k command

/-- HWQ and HWI with an index that names no device do nothing but charge their cost. R254. -/
def Obligations.OutOfRangeIndexIsANoOp : Prop :=
  ∀ (a : Operand) (s : State), s.deviceCount ≤ (s.valueA a).toNat →
    exec (.hwq a) s = .next { s with sp := spAfterPop a s.sp, wait := waitAfter s.config.waitCost.hwq a s } ∧
      exec (.hwi a) s = .next { s with sp := spAfterPop a s.sp, wait := waitAfter s.config.waitCost.hwi a s }

/-- LOG and BRK do nothing, HLT sets halted, and frame. Derived: decisions D3 and D19. -/
def Obligations.LogAndBrkAreNoOpsAndHltHalts : Prop :=
  ∀ (a : Operand) (s : State),
    exec (.log a) s = .next { s with sp := spAfterPop a s.sp, wait := waitAfter s.config.waitCost.log a s } ∧
      exec (.brk a) s = .next { s with sp := spAfterPop a s.sp, wait := waitAfter s.config.waitCost.brk a s } ∧
      exec (.hlt a) s = .next { s with
        sp := spAfterPop a s.sp, halted := true, wait := waitAfter s.config.waitCost.hlt a s }

/-- Each of the 24 unassigned encodings, executed, clears running and changes nothing else. Derived: decisions D2, D3
and D27. -/
def Obligations.UnassignedEncodingsClearRunning : Prop :=
  ∀ (b a : Operand) (s : State),
    let halted : Result := .next { s with running := false }
    exec (.invalidBasic18 b a) s = halted ∧
      exec (.invalidBasic19 b a) s = halted ∧
      exec (.invalidBasic1C b a) s = halted ∧
      exec (.invalidBasic1D b a) s = halted ∧
      exec (.invalidSpecial00 a) s = halted ∧
      exec (.invalidSpecial02 a) s = halted ∧
      exec (.invalidSpecial03 a) s = halted ∧
      exec (.invalidSpecial04 a) s = halted ∧
      exec (.invalidSpecial05 a) s = halted ∧
      exec (.invalidSpecial06 a) s = halted ∧
      exec (.invalidSpecial07 a) s = halted ∧
      exec (.invalidSpecial0D a) s = halted ∧
      exec (.invalidSpecial0E a) s = halted ∧
      exec (.invalidSpecial0F a) s = halted ∧
      exec (.invalidSpecial16 a) s = halted ∧
      exec (.invalidSpecial17 a) s = halted ∧
      exec (.invalidSpecial18 a) s = halted ∧
      exec (.invalidSpecial19 a) s = halted ∧
      exec (.invalidSpecial1A a) s = halted ∧
      exec (.invalidSpecial1B a) s = halted ∧
      exec (.invalidSpecial1C a) s = halted ∧
      exec (.invalidSpecial1D a) s = halted ∧
      exec (.invalidSpecial1E a) s = halted ∧
      exec (.invalidSpecial1F a) s = halted

/-! ### The parameters of the encoding -/

/-- OP_LOG, OP_BRK and OP_HLT select LOG, BRK and HLT; the nine fixed numbers keep theirs; every other is unassigned.
Derived: decision D3 and log entry 1. -/
def Obligations.SpecialNumbersAreParameters : Prop :=
  ∀ (numbers : SpecialNumbers) (w n1 n2 : Word), numbers.wf = true → opcodeField w = 0 →
    let i := decodeAt numbers w n1 n2
    let a := decodeOperand (aField w) n1
    (bField w = numbers.log → i = .log a) ∧ (bField w = numbers.brk → i = .brk a) ∧
      (bField w = numbers.hlt → i = .hlt a) ∧
      (bField w ∈ SpecialNumbers.fixed → i = decodeAt SpecialNumbers.default w n1 n2 ∧ unassigned i = false) ∧
      (bField w ∉ numbers.log :: numbers.brk :: numbers.hlt :: SpecialNumbers.fixed → unassigned i = true)
end

