-- ==== Sys2Proof/Laws/State.lean ====
section
/-! SUPPORT. One lemma per field of `State` per plain update, true by `rfl`, so that no later proof unfolds a record
update. -/

namespace Sys2Proof.Machine

variable (s : State)

/-! R12 `x[r] <- v`: `State.setReg`. -/

@[simp] theorem State.setReg_regs (r : Reg) (v : Word) : (s.setReg r v).regs = s.regs.set r v := rfl
@[simp] theorem State.setReg_pc (r : Reg) (v : Word) : (s.setReg r v).pc = s.pc := rfl
@[simp] theorem State.setReg_sp (r : Reg) (v : Word) : (s.setReg r v).sp = s.sp := rfl
@[simp] theorem State.setReg_ex (r : Reg) (v : Word) : (s.setReg r v).ex = s.ex := rfl
@[simp] theorem State.setReg_ia (r : Reg) (v : Word) : (s.setReg r v).ia = s.ia := rfl
@[simp] theorem State.setReg_iq (r : Reg) (v : Word) : (s.setReg r v).iq = s.iq := rfl
@[simp] theorem State.setReg_iqEnable (r : Reg) (v : Word) : (s.setReg r v).iqEnable = s.iqEnable := rfl
@[simp] theorem State.setReg_skipping (r : Reg) (v : Word) : (s.setReg r v).skipping = s.skipping := rfl
@[simp] theorem State.setReg_halted (r : Reg) (v : Word) : (s.setReg r v).halted = s.halted := rfl
@[simp] theorem State.setReg_running (r : Reg) (v : Word) : (s.setReg r v).running = s.running := rfl
@[simp] theorem State.setReg_wait (r : Reg) (v : Word) : (s.setReg r v).wait = s.wait := rfl
@[simp] theorem State.setReg_leftover (r : Reg) (v : Word) : (s.setReg r v).leftover = s.leftover := rfl
@[simp] theorem State.setReg_mem (r : Reg) (v : Word) : (s.setReg r v).mem = s.mem := rfl
@[simp] theorem State.setReg_dirty (r : Reg) (v : Word) : (s.setReg r v).dirty = s.dirty := rfl
@[simp] theorem State.setReg_syncCount (r : Reg) (v : Word) : (s.setReg r v).syncCount = s.syncCount := rfl
@[simp] theorem State.setReg_subs (r : Reg) (v : Word) : (s.setReg r v).subs = s.subs := rfl
@[simp] theorem State.setReg_devices (r : Reg) (v : Word) : (s.setReg r v).devices = s.devices := rfl
@[simp] theorem State.setReg_config (r : Reg) (v : Word) : (s.setReg r v).config = s.config := rfl
@[simp] theorem State.setReg_deviceDraws (r : Reg) (v : Word) : (s.setReg r v).deviceDraws = s.deviceDraws := rfl
@[simp] theorem State.setReg_guarding (r : Reg) (v : Word) : (s.setReg r v).guarding = s.guarding := rfl

/-! R66: `State.markDirty`. -/

@[simp] theorem State.markDirty_regs (r : Nat) : (s.markDirty r).regs = s.regs := rfl
@[simp] theorem State.markDirty_pc (r : Nat) : (s.markDirty r).pc = s.pc := rfl
@[simp] theorem State.markDirty_sp (r : Nat) : (s.markDirty r).sp = s.sp := rfl
@[simp] theorem State.markDirty_ex (r : Nat) : (s.markDirty r).ex = s.ex := rfl
@[simp] theorem State.markDirty_ia (r : Nat) : (s.markDirty r).ia = s.ia := rfl
@[simp] theorem State.markDirty_iq (r : Nat) : (s.markDirty r).iq = s.iq := rfl
@[simp] theorem State.markDirty_iqEnable (r : Nat) : (s.markDirty r).iqEnable = s.iqEnable := rfl
@[simp] theorem State.markDirty_skipping (r : Nat) : (s.markDirty r).skipping = s.skipping := rfl
@[simp] theorem State.markDirty_halted (r : Nat) : (s.markDirty r).halted = s.halted := rfl
@[simp] theorem State.markDirty_running (r : Nat) : (s.markDirty r).running = s.running := rfl
@[simp] theorem State.markDirty_wait (r : Nat) : (s.markDirty r).wait = s.wait := rfl
@[simp] theorem State.markDirty_leftover (r : Nat) : (s.markDirty r).leftover = s.leftover := rfl
@[simp] theorem State.markDirty_mem (r : Nat) : (s.markDirty r).mem = s.mem := rfl
@[simp] theorem State.markDirty_dirty (r : Nat) : (s.markDirty r).dirty = Store.update true s.dirty r true := rfl
@[simp] theorem State.markDirty_syncCount (r : Nat) : (s.markDirty r).syncCount = s.syncCount := rfl
@[simp] theorem State.markDirty_subs (r : Nat) : (s.markDirty r).subs = s.subs := rfl
@[simp] theorem State.markDirty_devices (r : Nat) : (s.markDirty r).devices = s.devices := rfl
@[simp] theorem State.markDirty_config (r : Nat) : (s.markDirty r).config = s.config := rfl
@[simp] theorem State.markDirty_deviceDraws (r : Nat) : (s.markDirty r).deviceDraws = s.deviceDraws := rfl
@[simp] theorem State.markDirty_guarding (r : Nat) : (s.markDirty r).guarding = s.guarding := rfl

/-! R63: `State.write`. -/

@[simp] theorem State.write_regs (addr v : Word) : (s.write addr v).regs = s.regs := rfl
@[simp] theorem State.write_pc (addr v : Word) : (s.write addr v).pc = s.pc := rfl
@[simp] theorem State.write_sp (addr v : Word) : (s.write addr v).sp = s.sp := rfl
@[simp] theorem State.write_ex (addr v : Word) : (s.write addr v).ex = s.ex := rfl
@[simp] theorem State.write_ia (addr v : Word) : (s.write addr v).ia = s.ia := rfl
@[simp] theorem State.write_iq (addr v : Word) : (s.write addr v).iq = s.iq := rfl
@[simp] theorem State.write_iqEnable (addr v : Word) : (s.write addr v).iqEnable = s.iqEnable := rfl
@[simp] theorem State.write_skipping (addr v : Word) : (s.write addr v).skipping = s.skipping := rfl
@[simp] theorem State.write_halted (addr v : Word) : (s.write addr v).halted = s.halted := rfl
@[simp] theorem State.write_running (addr v : Word) : (s.write addr v).running = s.running := rfl
@[simp] theorem State.write_wait (addr v : Word) : (s.write addr v).wait = s.wait := rfl
@[simp] theorem State.write_leftover (addr v : Word) : (s.write addr v).leftover = s.leftover := rfl
@[simp] theorem State.write_mem (addr v : Word) : (s.write addr v).mem = Store.update 0 s.mem addr.toNat v := rfl
@[simp] theorem State.write_dirty (addr v : Word) : (s.write addr v).dirty = Store.update true s.dirty (regionOf addr) true := rfl
@[simp] theorem State.write_syncCount (addr v : Word) : (s.write addr v).syncCount = s.syncCount := rfl
@[simp] theorem State.write_subs (addr v : Word) : (s.write addr v).subs = s.subs := rfl
@[simp] theorem State.write_devices (addr v : Word) : (s.write addr v).devices = s.devices := rfl
@[simp] theorem State.write_config (addr v : Word) : (s.write addr v).config = s.config := rfl
@[simp] theorem State.write_deviceDraws (addr v : Word) : (s.write addr v).deviceDraws = s.deviceDraws := rfl
@[simp] theorem State.write_guarding (addr v : Word) : (s.write addr v).guarding = s.guarding := rfl

/-! R12 `Push`: `State.push`. -/

@[simp] theorem State.push_regs (v : Word) : (s.push v).regs = s.regs := rfl
@[simp] theorem State.push_pc (v : Word) : (s.push v).pc = s.pc := rfl
@[simp] theorem State.push_sp (v : Word) : (s.push v).sp = s.sp - 1 := rfl
@[simp] theorem State.push_ex (v : Word) : (s.push v).ex = s.ex := rfl
@[simp] theorem State.push_ia (v : Word) : (s.push v).ia = s.ia := rfl
@[simp] theorem State.push_iq (v : Word) : (s.push v).iq = s.iq := rfl
@[simp] theorem State.push_iqEnable (v : Word) : (s.push v).iqEnable = s.iqEnable := rfl
@[simp] theorem State.push_skipping (v : Word) : (s.push v).skipping = s.skipping := rfl
@[simp] theorem State.push_halted (v : Word) : (s.push v).halted = s.halted := rfl
@[simp] theorem State.push_running (v : Word) : (s.push v).running = s.running := rfl
@[simp] theorem State.push_wait (v : Word) : (s.push v).wait = s.wait := rfl
@[simp] theorem State.push_leftover (v : Word) : (s.push v).leftover = s.leftover := rfl
@[simp] theorem State.push_mem (v : Word) : (s.push v).mem = Store.update 0 s.mem (s.sp - 1).toNat v := rfl
@[simp] theorem State.push_dirty (v : Word) : (s.push v).dirty = Store.update true s.dirty (regionOf (s.sp - 1)) true := rfl
@[simp] theorem State.push_syncCount (v : Word) : (s.push v).syncCount = s.syncCount := rfl
@[simp] theorem State.push_subs (v : Word) : (s.push v).subs = s.subs := rfl
@[simp] theorem State.push_devices (v : Word) : (s.push v).devices = s.devices := rfl
@[simp] theorem State.push_config (v : Word) : (s.push v).config = s.config := rfl
@[simp] theorem State.push_deviceDraws (v : Word) : (s.push v).deviceDraws = s.deviceDraws := rfl
@[simp] theorem State.push_guarding (v : Word) : (s.push v).guarding = s.guarding := rfl

/-! R12 `Pop`: `State.dropTop`. -/

@[simp] theorem State.dropTop_regs : (s.dropTop).regs = s.regs := rfl
@[simp] theorem State.dropTop_pc : (s.dropTop).pc = s.pc := rfl
@[simp] theorem State.dropTop_sp : (s.dropTop).sp = s.sp + 1 := rfl
@[simp] theorem State.dropTop_ex : (s.dropTop).ex = s.ex := rfl
@[simp] theorem State.dropTop_ia : (s.dropTop).ia = s.ia := rfl
@[simp] theorem State.dropTop_iq : (s.dropTop).iq = s.iq := rfl
@[simp] theorem State.dropTop_iqEnable : (s.dropTop).iqEnable = s.iqEnable := rfl
@[simp] theorem State.dropTop_skipping : (s.dropTop).skipping = s.skipping := rfl
@[simp] theorem State.dropTop_halted : (s.dropTop).halted = s.halted := rfl
@[simp] theorem State.dropTop_running : (s.dropTop).running = s.running := rfl
@[simp] theorem State.dropTop_wait : (s.dropTop).wait = s.wait := rfl
@[simp] theorem State.dropTop_leftover : (s.dropTop).leftover = s.leftover := rfl
@[simp] theorem State.dropTop_mem : (s.dropTop).mem = s.mem := rfl
@[simp] theorem State.dropTop_dirty : (s.dropTop).dirty = s.dirty := rfl
@[simp] theorem State.dropTop_syncCount : (s.dropTop).syncCount = s.syncCount := rfl
@[simp] theorem State.dropTop_subs : (s.dropTop).subs = s.subs := rfl
@[simp] theorem State.dropTop_devices : (s.dropTop).devices = s.devices := rfl
@[simp] theorem State.dropTop_config : (s.dropTop).config = s.config := rfl
@[simp] theorem State.dropTop_deviceDraws : (s.dropTop).deviceDraws = s.deviceDraws := rfl
@[simp] theorem State.dropTop_guarding : (s.dropTop).guarding = s.guarding := rfl

/-! R135: `State.addWait`. -/

@[simp] theorem State.addWait_regs (n : Nat) : (s.addWait n).regs = s.regs := rfl
@[simp] theorem State.addWait_pc (n : Nat) : (s.addWait n).pc = s.pc := rfl
@[simp] theorem State.addWait_sp (n : Nat) : (s.addWait n).sp = s.sp := rfl
@[simp] theorem State.addWait_ex (n : Nat) : (s.addWait n).ex = s.ex := rfl
@[simp] theorem State.addWait_ia (n : Nat) : (s.addWait n).ia = s.ia := rfl
@[simp] theorem State.addWait_iq (n : Nat) : (s.addWait n).iq = s.iq := rfl
@[simp] theorem State.addWait_iqEnable (n : Nat) : (s.addWait n).iqEnable = s.iqEnable := rfl
@[simp] theorem State.addWait_skipping (n : Nat) : (s.addWait n).skipping = s.skipping := rfl
@[simp] theorem State.addWait_halted (n : Nat) : (s.addWait n).halted = s.halted := rfl
@[simp] theorem State.addWait_running (n : Nat) : (s.addWait n).running = s.running := rfl
@[simp] theorem State.addWait_wait (n : Nat) : (s.addWait n).wait = s.wait + n := rfl
@[simp] theorem State.addWait_leftover (n : Nat) : (s.addWait n).leftover = s.leftover := rfl
@[simp] theorem State.addWait_mem (n : Nat) : (s.addWait n).mem = s.mem := rfl
@[simp] theorem State.addWait_dirty (n : Nat) : (s.addWait n).dirty = s.dirty := rfl
@[simp] theorem State.addWait_syncCount (n : Nat) : (s.addWait n).syncCount = s.syncCount := rfl
@[simp] theorem State.addWait_subs (n : Nat) : (s.addWait n).subs = s.subs := rfl
@[simp] theorem State.addWait_devices (n : Nat) : (s.addWait n).devices = s.devices := rfl
@[simp] theorem State.addWait_config (n : Nat) : (s.addWait n).config = s.config := rfl
@[simp] theorem State.addWait_deviceDraws (n : Nat) : (s.addWait n).deviceDraws = s.deviceDraws := rfl
@[simp] theorem State.addWait_guarding (n : Nat) : (s.addWait n).guarding = s.guarding := rfl

/-! R65: `State.memoryReset`. -/

@[simp] theorem State.memoryReset_regs : (s.memoryReset).regs = s.regs := rfl
@[simp] theorem State.memoryReset_pc : (s.memoryReset).pc = s.pc := rfl
@[simp] theorem State.memoryReset_sp : (s.memoryReset).sp = s.sp := rfl
@[simp] theorem State.memoryReset_ex : (s.memoryReset).ex = s.ex := rfl
@[simp] theorem State.memoryReset_ia : (s.memoryReset).ia = s.ia := rfl
@[simp] theorem State.memoryReset_iq : (s.memoryReset).iq = s.iq := rfl
@[simp] theorem State.memoryReset_iqEnable : (s.memoryReset).iqEnable = s.iqEnable := rfl
@[simp] theorem State.memoryReset_skipping : (s.memoryReset).skipping = s.skipping := rfl
@[simp] theorem State.memoryReset_halted : (s.memoryReset).halted = s.halted := rfl
@[simp] theorem State.memoryReset_running : (s.memoryReset).running = s.running := rfl
@[simp] theorem State.memoryReset_wait : (s.memoryReset).wait = s.wait := rfl
@[simp] theorem State.memoryReset_leftover : (s.memoryReset).leftover = s.leftover := rfl
@[simp] theorem State.memoryReset_mem : (s.memoryReset).mem = [] := rfl
@[simp] theorem State.memoryReset_dirty : (s.memoryReset).dirty = [] := rfl
@[simp] theorem State.memoryReset_syncCount : (s.memoryReset).syncCount = s.syncCount := rfl
@[simp] theorem State.memoryReset_subs : (s.memoryReset).subs = s.subs := rfl
@[simp] theorem State.memoryReset_devices : (s.memoryReset).devices = s.devices := rfl
@[simp] theorem State.memoryReset_config : (s.memoryReset).config = s.config := rfl
@[simp] theorem State.memoryReset_deviceDraws : (s.memoryReset).deviceDraws = s.deviceDraws := rfl
@[simp] theorem State.memoryReset_guarding : (s.memoryReset).guarding = s.guarding := rfl

/-! R270: `State.fatalHalt`. -/

@[simp] theorem State.fatalHalt_regs : (s.fatalHalt).regs = s.regs := rfl
@[simp] theorem State.fatalHalt_pc : (s.fatalHalt).pc = s.pc := rfl
@[simp] theorem State.fatalHalt_sp : (s.fatalHalt).sp = s.sp := rfl
@[simp] theorem State.fatalHalt_ex : (s.fatalHalt).ex = s.ex := rfl
@[simp] theorem State.fatalHalt_ia : (s.fatalHalt).ia = s.ia := rfl
@[simp] theorem State.fatalHalt_iq : (s.fatalHalt).iq = s.iq := rfl
@[simp] theorem State.fatalHalt_iqEnable : (s.fatalHalt).iqEnable = s.iqEnable := rfl
@[simp] theorem State.fatalHalt_skipping : (s.fatalHalt).skipping = s.skipping := rfl
@[simp] theorem State.fatalHalt_halted : (s.fatalHalt).halted = s.halted := rfl
@[simp] theorem State.fatalHalt_running : (s.fatalHalt).running = false := rfl
@[simp] theorem State.fatalHalt_wait : (s.fatalHalt).wait = s.wait := rfl
@[simp] theorem State.fatalHalt_leftover : (s.fatalHalt).leftover = s.leftover := rfl
@[simp] theorem State.fatalHalt_mem : (s.fatalHalt).mem = s.mem := rfl
@[simp] theorem State.fatalHalt_dirty : (s.fatalHalt).dirty = s.dirty := rfl
@[simp] theorem State.fatalHalt_syncCount : (s.fatalHalt).syncCount = s.syncCount := rfl
@[simp] theorem State.fatalHalt_subs : (s.fatalHalt).subs = s.subs := rfl
@[simp] theorem State.fatalHalt_devices : (s.fatalHalt).devices = s.devices := rfl
@[simp] theorem State.fatalHalt_config : (s.fatalHalt).config = s.config := rfl
@[simp] theorem State.fatalHalt_deviceDraws : (s.fatalHalt).deviceDraws = s.deviceDraws := rfl
@[simp] theorem State.fatalHalt_guarding : (s.fatalHalt).guarding = s.guarding := rfl

/-! R69, R70: `State.setRegistered`. -/

@[simp] theorem State.setRegistered_regs (k : Nat) (u : Subscription) (on : Bool) : (s.setRegistered k u on).regs = s.regs := rfl
@[simp] theorem State.setRegistered_pc (k : Nat) (u : Subscription) (on : Bool) : (s.setRegistered k u on).pc = s.pc := rfl
@[simp] theorem State.setRegistered_sp (k : Nat) (u : Subscription) (on : Bool) : (s.setRegistered k u on).sp = s.sp := rfl
@[simp] theorem State.setRegistered_ex (k : Nat) (u : Subscription) (on : Bool) : (s.setRegistered k u on).ex = s.ex := rfl
@[simp] theorem State.setRegistered_ia (k : Nat) (u : Subscription) (on : Bool) : (s.setRegistered k u on).ia = s.ia := rfl
@[simp] theorem State.setRegistered_iq (k : Nat) (u : Subscription) (on : Bool) : (s.setRegistered k u on).iq = s.iq := rfl
@[simp] theorem State.setRegistered_iqEnable (k : Nat) (u : Subscription) (on : Bool) : (s.setRegistered k u on).iqEnable = s.iqEnable := rfl
@[simp] theorem State.setRegistered_skipping (k : Nat) (u : Subscription) (on : Bool) : (s.setRegistered k u on).skipping = s.skipping := rfl
@[simp] theorem State.setRegistered_halted (k : Nat) (u : Subscription) (on : Bool) : (s.setRegistered k u on).halted = s.halted := rfl
@[simp] theorem State.setRegistered_running (k : Nat) (u : Subscription) (on : Bool) : (s.setRegistered k u on).running = s.running := rfl
@[simp] theorem State.setRegistered_wait (k : Nat) (u : Subscription) (on : Bool) : (s.setRegistered k u on).wait = s.wait := rfl
@[simp] theorem State.setRegistered_leftover (k : Nat) (u : Subscription) (on : Bool) : (s.setRegistered k u on).leftover = s.leftover := rfl
@[simp] theorem State.setRegistered_mem (k : Nat) (u : Subscription) (on : Bool) : (s.setRegistered k u on).mem = s.mem := rfl
@[simp] theorem State.setRegistered_dirty (k : Nat) (u : Subscription) (on : Bool) : (s.setRegistered k u on).dirty = s.dirty := rfl
@[simp] theorem State.setRegistered_syncCount (k : Nat) (u : Subscription) (on : Bool) : (s.setRegistered k u on).syncCount = s.syncCount := rfl
@[simp] theorem State.setRegistered_subs (k : Nat) (u : Subscription) (on : Bool) : (s.setRegistered k u on).subs = s.subs.set k { u with registered := on } := rfl
@[simp] theorem State.setRegistered_devices (k : Nat) (u : Subscription) (on : Bool) : (s.setRegistered k u on).devices = s.devices := rfl
@[simp] theorem State.setRegistered_config (k : Nat) (u : Subscription) (on : Bool) : (s.setRegistered k u on).config = s.config := rfl
@[simp] theorem State.setRegistered_deviceDraws (k : Nat) (u : Subscription) (on : Bool) : (s.setRegistered k u on).deviceDraws = s.deviceDraws := rfl
@[simp] theorem State.setRegistered_guarding (k : Nat) (u : Subscription) (on : Bool) : (s.setRegistered k u on).guarding = s.guarding := rfl

/-! R255: `State.setKind`. -/

@[simp] theorem State.setKind_regs (node : Nat) (kind : DeviceKind) : (s.setKind node kind).regs = s.regs := rfl
@[simp] theorem State.setKind_pc (node : Nat) (kind : DeviceKind) : (s.setKind node kind).pc = s.pc := rfl
@[simp] theorem State.setKind_sp (node : Nat) (kind : DeviceKind) : (s.setKind node kind).sp = s.sp := rfl
@[simp] theorem State.setKind_ex (node : Nat) (kind : DeviceKind) : (s.setKind node kind).ex = s.ex := rfl
@[simp] theorem State.setKind_ia (node : Nat) (kind : DeviceKind) : (s.setKind node kind).ia = s.ia := rfl
@[simp] theorem State.setKind_iq (node : Nat) (kind : DeviceKind) : (s.setKind node kind).iq = s.iq := rfl
@[simp] theorem State.setKind_iqEnable (node : Nat) (kind : DeviceKind) : (s.setKind node kind).iqEnable = s.iqEnable := rfl
@[simp] theorem State.setKind_skipping (node : Nat) (kind : DeviceKind) : (s.setKind node kind).skipping = s.skipping := rfl
@[simp] theorem State.setKind_halted (node : Nat) (kind : DeviceKind) : (s.setKind node kind).halted = s.halted := rfl
@[simp] theorem State.setKind_running (node : Nat) (kind : DeviceKind) : (s.setKind node kind).running = s.running := rfl
@[simp] theorem State.setKind_wait (node : Nat) (kind : DeviceKind) : (s.setKind node kind).wait = s.wait := rfl
@[simp] theorem State.setKind_leftover (node : Nat) (kind : DeviceKind) : (s.setKind node kind).leftover = s.leftover := rfl
@[simp] theorem State.setKind_mem (node : Nat) (kind : DeviceKind) : (s.setKind node kind).mem = s.mem := rfl
@[simp] theorem State.setKind_dirty (node : Nat) (kind : DeviceKind) : (s.setKind node kind).dirty = s.dirty := rfl
@[simp] theorem State.setKind_syncCount (node : Nat) (kind : DeviceKind) : (s.setKind node kind).syncCount = s.syncCount := rfl
@[simp] theorem State.setKind_subs (node : Nat) (kind : DeviceKind) : (s.setKind node kind).subs = s.subs := rfl
@[simp] theorem State.setKind_devices (node : Nat) (kind : DeviceKind) : (s.setKind node kind).devices = s.devices.modify node (fun d => { d with kind }) := rfl
@[simp] theorem State.setKind_config (node : Nat) (kind : DeviceKind) : (s.setKind node kind).config = s.config := rfl
@[simp] theorem State.setKind_deviceDraws (node : Nat) (kind : DeviceKind) : (s.setKind node kind).deviceDraws = s.deviceDraws := rfl
@[simp] theorem State.setKind_guarding (node : Nat) (kind : DeviceKind) : (s.setKind node kind).guarding = s.guarding := rfl

/-! R255: `State.internalOp`. -/

@[simp] theorem State.internalOp_regs (node : Nat) (op : InternalOp) : (s.internalOp node op).regs = s.regs := rfl
@[simp] theorem State.internalOp_pc (node : Nat) (op : InternalOp) : (s.internalOp node op).pc = s.pc := rfl
@[simp] theorem State.internalOp_sp (node : Nat) (op : InternalOp) : (s.internalOp node op).sp = s.sp := rfl
@[simp] theorem State.internalOp_ex (node : Nat) (op : InternalOp) : (s.internalOp node op).ex = s.ex := rfl
@[simp] theorem State.internalOp_ia (node : Nat) (op : InternalOp) : (s.internalOp node op).ia = s.ia := rfl
@[simp] theorem State.internalOp_iq (node : Nat) (op : InternalOp) : (s.internalOp node op).iq = s.iq := rfl
@[simp] theorem State.internalOp_iqEnable (node : Nat) (op : InternalOp) : (s.internalOp node op).iqEnable = s.iqEnable := rfl
@[simp] theorem State.internalOp_skipping (node : Nat) (op : InternalOp) : (s.internalOp node op).skipping = s.skipping := rfl
@[simp] theorem State.internalOp_halted (node : Nat) (op : InternalOp) : (s.internalOp node op).halted = s.halted := rfl
@[simp] theorem State.internalOp_running (node : Nat) (op : InternalOp) : (s.internalOp node op).running = s.running := rfl
@[simp] theorem State.internalOp_wait (node : Nat) (op : InternalOp) : (s.internalOp node op).wait = s.wait := rfl
@[simp] theorem State.internalOp_leftover (node : Nat) (op : InternalOp) : (s.internalOp node op).leftover = s.leftover := rfl
@[simp] theorem State.internalOp_mem (node : Nat) (op : InternalOp) : (s.internalOp node op).mem = s.mem := rfl
@[simp] theorem State.internalOp_dirty (node : Nat) (op : InternalOp) : (s.internalOp node op).dirty = s.dirty := rfl
@[simp] theorem State.internalOp_syncCount (node : Nat) (op : InternalOp) : (s.internalOp node op).syncCount = s.syncCount := rfl
@[simp] theorem State.internalOp_subs (node : Nat) (op : InternalOp) : (s.internalOp node op).subs = s.subs := rfl
@[simp] theorem State.internalOp_devices (node : Nat) (op : InternalOp) : (s.internalOp node op).devices = s.devices.modify node (fun d => { d with kind := d.kind.act op }) := rfl
@[simp] theorem State.internalOp_config (node : Nat) (op : InternalOp) : (s.internalOp node op).config = s.config := rfl
@[simp] theorem State.internalOp_deviceDraws (node : Nat) (op : InternalOp) : (s.internalOp node op).deviceDraws = s.deviceDraws := rfl
@[simp] theorem State.internalOp_guarding (node : Nat) (op : InternalOp) : (s.internalOp node op).guarding = s.guarding := rfl

/-! R121: `State.afterFetch`. -/

@[simp] theorem State.afterFetch_regs : (s.afterFetch).regs = s.regs := rfl
@[simp] theorem State.afterFetch_pc : (s.afterFetch).pc = s.pc + BitVec.ofNat 16 s.fetched.wordCount := rfl
@[simp] theorem State.afterFetch_sp : (s.afterFetch).sp = s.sp := rfl
@[simp] theorem State.afterFetch_ex : (s.afterFetch).ex = s.ex := rfl
@[simp] theorem State.afterFetch_ia : (s.afterFetch).ia = s.ia := rfl
@[simp] theorem State.afterFetch_iq : (s.afterFetch).iq = s.iq := rfl
@[simp] theorem State.afterFetch_iqEnable : (s.afterFetch).iqEnable = s.iqEnable := rfl
@[simp] theorem State.afterFetch_skipping : (s.afterFetch).skipping = s.skipping := rfl
@[simp] theorem State.afterFetch_halted : (s.afterFetch).halted = s.halted := rfl
@[simp] theorem State.afterFetch_running : (s.afterFetch).running = s.running := rfl
@[simp] theorem State.afterFetch_wait : (s.afterFetch).wait = s.wait := rfl
@[simp] theorem State.afterFetch_leftover : (s.afterFetch).leftover = s.leftover := rfl
@[simp] theorem State.afterFetch_mem : (s.afterFetch).mem = s.mem := rfl
@[simp] theorem State.afterFetch_dirty : (s.afterFetch).dirty = s.dirty := rfl
@[simp] theorem State.afterFetch_syncCount : (s.afterFetch).syncCount = s.syncCount := rfl
@[simp] theorem State.afterFetch_subs : (s.afterFetch).subs = s.subs := rfl
@[simp] theorem State.afterFetch_devices : (s.afterFetch).devices = s.devices := rfl
@[simp] theorem State.afterFetch_config : (s.afterFetch).config = s.config := rfl
@[simp] theorem State.afterFetch_deviceDraws : (s.afterFetch).deviceDraws = s.deviceDraws := rfl
@[simp] theorem State.afterFetch_guarding : (s.afterFetch).guarding = s.fetched.isConditional := rfl

/-! R172, R173: `State.stepCursors`. -/

@[simp] theorem State.stepCursors_pc (d : Word) : (s.stepCursors d).pc = s.pc := rfl
@[simp] theorem State.stepCursors_sp (d : Word) : (s.stepCursors d).sp = s.sp := rfl
@[simp] theorem State.stepCursors_ex (d : Word) : (s.stepCursors d).ex = s.ex := rfl
@[simp] theorem State.stepCursors_ia (d : Word) : (s.stepCursors d).ia = s.ia := rfl
@[simp] theorem State.stepCursors_iq (d : Word) : (s.stepCursors d).iq = s.iq := rfl
@[simp] theorem State.stepCursors_iqEnable (d : Word) : (s.stepCursors d).iqEnable = s.iqEnable := rfl
@[simp] theorem State.stepCursors_skipping (d : Word) : (s.stepCursors d).skipping = s.skipping := rfl
@[simp] theorem State.stepCursors_halted (d : Word) : (s.stepCursors d).halted = s.halted := rfl
@[simp] theorem State.stepCursors_running (d : Word) : (s.stepCursors d).running = s.running := rfl
@[simp] theorem State.stepCursors_wait (d : Word) : (s.stepCursors d).wait = s.wait := rfl
@[simp] theorem State.stepCursors_leftover (d : Word) : (s.stepCursors d).leftover = s.leftover := rfl
@[simp] theorem State.stepCursors_mem (d : Word) : (s.stepCursors d).mem = s.mem := rfl
@[simp] theorem State.stepCursors_dirty (d : Word) : (s.stepCursors d).dirty = s.dirty := rfl
@[simp] theorem State.stepCursors_syncCount (d : Word) : (s.stepCursors d).syncCount = s.syncCount := rfl
@[simp] theorem State.stepCursors_subs (d : Word) : (s.stepCursors d).subs = s.subs := rfl
@[simp] theorem State.stepCursors_devices (d : Word) : (s.stepCursors d).devices = s.devices := rfl
@[simp] theorem State.stepCursors_config (d : Word) : (s.stepCursors d).config = s.config := rfl
@[simp] theorem State.stepCursors_deviceDraws (d : Word) : (s.stepCursors d).deviceDraws = s.deviceDraws := rfl
@[simp] theorem State.stepCursors_guarding (d : Word) : (s.stepCursors d).guarding = s.guarding := rfl

/-! R252: `State.showIdentity`. -/

@[simp] theorem State.showIdentity_pc (d : Identity) : (s.showIdentity d).pc = s.pc := rfl
@[simp] theorem State.showIdentity_sp (d : Identity) : (s.showIdentity d).sp = s.sp := rfl
@[simp] theorem State.showIdentity_ex (d : Identity) : (s.showIdentity d).ex = s.ex := rfl
@[simp] theorem State.showIdentity_ia (d : Identity) : (s.showIdentity d).ia = s.ia := rfl
@[simp] theorem State.showIdentity_iq (d : Identity) : (s.showIdentity d).iq = s.iq := rfl
@[simp] theorem State.showIdentity_iqEnable (d : Identity) : (s.showIdentity d).iqEnable = s.iqEnable := rfl
@[simp] theorem State.showIdentity_skipping (d : Identity) : (s.showIdentity d).skipping = s.skipping := rfl
@[simp] theorem State.showIdentity_halted (d : Identity) : (s.showIdentity d).halted = s.halted := rfl
@[simp] theorem State.showIdentity_running (d : Identity) : (s.showIdentity d).running = s.running := rfl
@[simp] theorem State.showIdentity_wait (d : Identity) : (s.showIdentity d).wait = s.wait := rfl
@[simp] theorem State.showIdentity_leftover (d : Identity) : (s.showIdentity d).leftover = s.leftover := rfl
@[simp] theorem State.showIdentity_mem (d : Identity) : (s.showIdentity d).mem = s.mem := rfl
@[simp] theorem State.showIdentity_dirty (d : Identity) : (s.showIdentity d).dirty = s.dirty := rfl
@[simp] theorem State.showIdentity_syncCount (d : Identity) : (s.showIdentity d).syncCount = s.syncCount := rfl
@[simp] theorem State.showIdentity_subs (d : Identity) : (s.showIdentity d).subs = s.subs := rfl
@[simp] theorem State.showIdentity_devices (d : Identity) : (s.showIdentity d).devices = s.devices := rfl
@[simp] theorem State.showIdentity_config (d : Identity) : (s.showIdentity d).config = s.config := rfl
@[simp] theorem State.showIdentity_deviceDraws (d : Identity) : (s.showIdentity d).deviceDraws = s.deviceDraws := rfl
@[simp] theorem State.showIdentity_guarding (d : Identity) : (s.showIdentity d).guarding = s.guarding := rfl

/-! R292: `State.enterHandler`. -/

@[simp] theorem State.enterHandler_regs (m : Word) : (s.enterHandler m).regs = s.regs.set .a m := rfl
@[simp] theorem State.enterHandler_pc (m : Word) : (s.enterHandler m).pc = s.ia := rfl
@[simp] theorem State.enterHandler_sp (m : Word) : (s.enterHandler m).sp = s.sp - 1 - 1 := rfl
@[simp] theorem State.enterHandler_ex (m : Word) : (s.enterHandler m).ex = s.ex := rfl
@[simp] theorem State.enterHandler_ia (m : Word) : (s.enterHandler m).ia = s.ia := rfl
@[simp] theorem State.enterHandler_iq (m : Word) : (s.enterHandler m).iq = s.iq := rfl
@[simp] theorem State.enterHandler_iqEnable (m : Word) : (s.enterHandler m).iqEnable = false := rfl
@[simp] theorem State.enterHandler_skipping (m : Word) : (s.enterHandler m).skipping = s.skipping := rfl
@[simp] theorem State.enterHandler_halted (m : Word) : (s.enterHandler m).halted = false := rfl
@[simp] theorem State.enterHandler_running (m : Word) : (s.enterHandler m).running = s.running := rfl
@[simp] theorem State.enterHandler_wait (m : Word) : (s.enterHandler m).wait = s.wait := rfl
@[simp] theorem State.enterHandler_leftover (m : Word) : (s.enterHandler m).leftover = s.leftover := rfl
@[simp] theorem State.enterHandler_mem (m : Word) : (s.enterHandler m).mem = Store.update 0 (Store.update 0 s.mem (s.sp - 1).toNat s.pc) (s.sp - 1 - 1).toNat (s.reg .a) := rfl
@[simp] theorem State.enterHandler_syncCount (m : Word) : (s.enterHandler m).syncCount = s.syncCount := rfl
@[simp] theorem State.enterHandler_subs (m : Word) : (s.enterHandler m).subs = s.subs := rfl
@[simp] theorem State.enterHandler_devices (m : Word) : (s.enterHandler m).devices = s.devices := rfl
@[simp] theorem State.enterHandler_config (m : Word) : (s.enterHandler m).config = s.config := rfl
@[simp] theorem State.enterHandler_deviceDraws (m : Word) : (s.enterHandler m).deviceDraws = s.deviceDraws := rfl
@[simp] theorem State.enterHandler_guarding (m : Word) : (s.enterHandler m).guarding = s.guarding := rfl

/-! R238: `State.returnFromInterrupt`. -/

@[simp] theorem State.returnFromInterrupt_regs : (s.returnFromInterrupt).regs = s.regs.set .a s.top := rfl
@[simp] theorem State.returnFromInterrupt_pc : (s.returnFromInterrupt).pc = s.read (s.sp + 1) := rfl
@[simp] theorem State.returnFromInterrupt_sp : (s.returnFromInterrupt).sp = s.sp + 1 + 1 := rfl
@[simp] theorem State.returnFromInterrupt_ex : (s.returnFromInterrupt).ex = s.ex := rfl
@[simp] theorem State.returnFromInterrupt_ia : (s.returnFromInterrupt).ia = s.ia := rfl
@[simp] theorem State.returnFromInterrupt_iq : (s.returnFromInterrupt).iq = s.iq := rfl
@[simp] theorem State.returnFromInterrupt_iqEnable : (s.returnFromInterrupt).iqEnable = true := rfl
@[simp] theorem State.returnFromInterrupt_skipping : (s.returnFromInterrupt).skipping = s.skipping := rfl
@[simp] theorem State.returnFromInterrupt_halted : (s.returnFromInterrupt).halted = s.halted := rfl
@[simp] theorem State.returnFromInterrupt_running : (s.returnFromInterrupt).running = s.running := rfl
@[simp] theorem State.returnFromInterrupt_wait : (s.returnFromInterrupt).wait = s.wait := rfl
@[simp] theorem State.returnFromInterrupt_leftover : (s.returnFromInterrupt).leftover = s.leftover := rfl
@[simp] theorem State.returnFromInterrupt_mem : (s.returnFromInterrupt).mem = s.mem := rfl
@[simp] theorem State.returnFromInterrupt_dirty : (s.returnFromInterrupt).dirty = s.dirty := rfl
@[simp] theorem State.returnFromInterrupt_syncCount : (s.returnFromInterrupt).syncCount = s.syncCount := rfl
@[simp] theorem State.returnFromInterrupt_subs : (s.returnFromInterrupt).subs = s.subs := rfl
@[simp] theorem State.returnFromInterrupt_devices : (s.returnFromInterrupt).devices = s.devices := rfl
@[simp] theorem State.returnFromInterrupt_config : (s.returnFromInterrupt).config = s.config := rfl
@[simp] theorem State.returnFromInterrupt_deviceDraws : (s.returnFromInterrupt).deviceDraws = s.deviceDraws := rfl
@[simp] theorem State.returnFromInterrupt_guarding : (s.returnFromInterrupt).guarding = s.guarding := rfl

end Sys2Proof.Machine
end

