-- ==== Sys2Proof/Laws/Frame.lean ====
section
/-! SUPPORT. What each composite operation leaves alone, one lemma per field, so that no later proof unfolds it for a field
it does not touch. -/

namespace Sys2Proof.Machine

variable (s : State)

/-! R125, R136: `State.popAdjust`. -/

@[simp] theorem State.popAdjust_regs (o : Operand) : (s.popAdjust o).regs = s.regs := by unfold State.popAdjust; split <;> rfl
@[simp] theorem State.popAdjust_pc (o : Operand) : (s.popAdjust o).pc = s.pc := by unfold State.popAdjust; split <;> rfl
@[simp] theorem State.popAdjust_ex (o : Operand) : (s.popAdjust o).ex = s.ex := by unfold State.popAdjust; split <;> rfl
@[simp] theorem State.popAdjust_ia (o : Operand) : (s.popAdjust o).ia = s.ia := by unfold State.popAdjust; split <;> rfl
@[simp] theorem State.popAdjust_iq (o : Operand) : (s.popAdjust o).iq = s.iq := by unfold State.popAdjust; split <;> rfl
@[simp] theorem State.popAdjust_iqEnable (o : Operand) : (s.popAdjust o).iqEnable = s.iqEnable := by unfold State.popAdjust; split <;> rfl
@[simp] theorem State.popAdjust_skipping (o : Operand) : (s.popAdjust o).skipping = s.skipping := by unfold State.popAdjust; split <;> rfl
@[simp] theorem State.popAdjust_halted (o : Operand) : (s.popAdjust o).halted = s.halted := by unfold State.popAdjust; split <;> rfl
@[simp] theorem State.popAdjust_running (o : Operand) : (s.popAdjust o).running = s.running := by unfold State.popAdjust; split <;> rfl
@[simp] theorem State.popAdjust_wait (o : Operand) : (s.popAdjust o).wait = s.wait := by unfold State.popAdjust; split <;> rfl
@[simp] theorem State.popAdjust_leftover (o : Operand) : (s.popAdjust o).leftover = s.leftover := by unfold State.popAdjust; split <;> rfl
@[simp] theorem State.popAdjust_mem (o : Operand) : (s.popAdjust o).mem = s.mem := by unfold State.popAdjust; split <;> rfl
@[simp] theorem State.popAdjust_dirty (o : Operand) : (s.popAdjust o).dirty = s.dirty := by unfold State.popAdjust; split <;> rfl
@[simp] theorem State.popAdjust_syncCount (o : Operand) : (s.popAdjust o).syncCount = s.syncCount := by unfold State.popAdjust; split <;> rfl
@[simp] theorem State.popAdjust_subs (o : Operand) : (s.popAdjust o).subs = s.subs := by unfold State.popAdjust; split <;> rfl
@[simp] theorem State.popAdjust_devices (o : Operand) : (s.popAdjust o).devices = s.devices := by unfold State.popAdjust; split <;> rfl
@[simp] theorem State.popAdjust_config (o : Operand) : (s.popAdjust o).config = s.config := by unfold State.popAdjust; split <;> rfl
@[simp] theorem State.popAdjust_deviceDraws (o : Operand) : (s.popAdjust o).deviceDraws = s.deviceDraws := by unfold State.popAdjust; split <;> rfl
@[simp] theorem State.popAdjust_guarding (o : Operand) : (s.popAdjust o).guarding = s.guarding := by unfold State.popAdjust; split <;> rfl

/-! R126, R129: `State.pushAdjust`. -/

@[simp] theorem State.pushAdjust_regs (o : Operand) : (s.pushAdjust o).regs = s.regs := by unfold State.pushAdjust; split <;> rfl
@[simp] theorem State.pushAdjust_pc (o : Operand) : (s.pushAdjust o).pc = s.pc := by unfold State.pushAdjust; split <;> rfl
@[simp] theorem State.pushAdjust_ex (o : Operand) : (s.pushAdjust o).ex = s.ex := by unfold State.pushAdjust; split <;> rfl
@[simp] theorem State.pushAdjust_ia (o : Operand) : (s.pushAdjust o).ia = s.ia := by unfold State.pushAdjust; split <;> rfl
@[simp] theorem State.pushAdjust_iq (o : Operand) : (s.pushAdjust o).iq = s.iq := by unfold State.pushAdjust; split <;> rfl
@[simp] theorem State.pushAdjust_iqEnable (o : Operand) : (s.pushAdjust o).iqEnable = s.iqEnable := by unfold State.pushAdjust; split <;> rfl
@[simp] theorem State.pushAdjust_skipping (o : Operand) : (s.pushAdjust o).skipping = s.skipping := by unfold State.pushAdjust; split <;> rfl
@[simp] theorem State.pushAdjust_halted (o : Operand) : (s.pushAdjust o).halted = s.halted := by unfold State.pushAdjust; split <;> rfl
@[simp] theorem State.pushAdjust_running (o : Operand) : (s.pushAdjust o).running = s.running := by unfold State.pushAdjust; split <;> rfl
@[simp] theorem State.pushAdjust_wait (o : Operand) : (s.pushAdjust o).wait = s.wait := by unfold State.pushAdjust; split <;> rfl
@[simp] theorem State.pushAdjust_leftover (o : Operand) : (s.pushAdjust o).leftover = s.leftover := by unfold State.pushAdjust; split <;> rfl
@[simp] theorem State.pushAdjust_mem (o : Operand) : (s.pushAdjust o).mem = s.mem := by unfold State.pushAdjust; split <;> rfl
@[simp] theorem State.pushAdjust_dirty (o : Operand) : (s.pushAdjust o).dirty = s.dirty := by unfold State.pushAdjust; split <;> rfl
@[simp] theorem State.pushAdjust_syncCount (o : Operand) : (s.pushAdjust o).syncCount = s.syncCount := by unfold State.pushAdjust; split <;> rfl
@[simp] theorem State.pushAdjust_subs (o : Operand) : (s.pushAdjust o).subs = s.subs := by unfold State.pushAdjust; split <;> rfl
@[simp] theorem State.pushAdjust_devices (o : Operand) : (s.pushAdjust o).devices = s.devices := by unfold State.pushAdjust; split <;> rfl
@[simp] theorem State.pushAdjust_config (o : Operand) : (s.pushAdjust o).config = s.config := by unfold State.pushAdjust; split <;> rfl
@[simp] theorem State.pushAdjust_deviceDraws (o : Operand) : (s.pushAdjust o).deviceDraws = s.deviceDraws := by unfold State.pushAdjust; split <;> rfl
@[simp] theorem State.pushAdjust_guarding (o : Operand) : (s.pushAdjust o).guarding = s.guarding := by unfold State.pushAdjust; split <;> rfl

/-! R128: `State.writeLoc`. -/

@[simp] theorem State.writeLoc_ia (l : Loc) (v : Word) : (s.writeLoc l v).ia = s.ia := by cases l <;> rfl
@[simp] theorem State.writeLoc_iq (l : Loc) (v : Word) : (s.writeLoc l v).iq = s.iq := by cases l <;> rfl
@[simp] theorem State.writeLoc_iqEnable (l : Loc) (v : Word) : (s.writeLoc l v).iqEnable = s.iqEnable := by cases l <;> rfl
@[simp] theorem State.writeLoc_skipping (l : Loc) (v : Word) : (s.writeLoc l v).skipping = s.skipping := by cases l <;> rfl
@[simp] theorem State.writeLoc_halted (l : Loc) (v : Word) : (s.writeLoc l v).halted = s.halted := by cases l <;> rfl
@[simp] theorem State.writeLoc_running (l : Loc) (v : Word) : (s.writeLoc l v).running = s.running := by cases l <;> rfl
@[simp] theorem State.writeLoc_wait (l : Loc) (v : Word) : (s.writeLoc l v).wait = s.wait := by cases l <;> rfl
@[simp] theorem State.writeLoc_leftover (l : Loc) (v : Word) : (s.writeLoc l v).leftover = s.leftover := by cases l <;> rfl
@[simp] theorem State.writeLoc_syncCount (l : Loc) (v : Word) : (s.writeLoc l v).syncCount = s.syncCount := by cases l <;> rfl
@[simp] theorem State.writeLoc_subs (l : Loc) (v : Word) : (s.writeLoc l v).subs = s.subs := by cases l <;> rfl
@[simp] theorem State.writeLoc_devices (l : Loc) (v : Word) : (s.writeLoc l v).devices = s.devices := by cases l <;> rfl
@[simp] theorem State.writeLoc_config (l : Loc) (v : Word) : (s.writeLoc l v).config = s.config := by cases l <;> rfl
@[simp] theorem State.writeLoc_deviceDraws (l : Loc) (v : Word) : (s.writeLoc l v).deviceDraws = s.deviceDraws := by cases l <;> rfl
@[simp] theorem State.writeLoc_guarding (l : Loc) (v : Word) : (s.writeLoc l v).guarding = s.guarding := by cases l <;> rfl

/-! R134: `State.writeBack`. -/

@[simp] theorem State.writeBack_ia (l : Loc) (out : AluOut) : (s.writeBack l out).ia = s.ia := by
  unfold State.writeBack; cases s.config.exDestOrder <;> cases out.result <;> cases out.exNew <;> simp
@[simp] theorem State.writeBack_iq (l : Loc) (out : AluOut) : (s.writeBack l out).iq = s.iq := by
  unfold State.writeBack; cases s.config.exDestOrder <;> cases out.result <;> cases out.exNew <;> simp
@[simp] theorem State.writeBack_iqEnable (l : Loc) (out : AluOut) : (s.writeBack l out).iqEnable = s.iqEnable := by
  unfold State.writeBack; cases s.config.exDestOrder <;> cases out.result <;> cases out.exNew <;> simp
@[simp] theorem State.writeBack_skipping (l : Loc) (out : AluOut) : (s.writeBack l out).skipping = s.skipping := by
  unfold State.writeBack; cases s.config.exDestOrder <;> cases out.result <;> cases out.exNew <;> simp
@[simp] theorem State.writeBack_halted (l : Loc) (out : AluOut) : (s.writeBack l out).halted = s.halted := by
  unfold State.writeBack; cases s.config.exDestOrder <;> cases out.result <;> cases out.exNew <;> simp
@[simp] theorem State.writeBack_running (l : Loc) (out : AluOut) : (s.writeBack l out).running = s.running := by
  unfold State.writeBack; cases s.config.exDestOrder <;> cases out.result <;> cases out.exNew <;> simp
@[simp] theorem State.writeBack_wait (l : Loc) (out : AluOut) : (s.writeBack l out).wait = s.wait := by
  unfold State.writeBack; cases s.config.exDestOrder <;> cases out.result <;> cases out.exNew <;> simp
@[simp] theorem State.writeBack_leftover (l : Loc) (out : AluOut) : (s.writeBack l out).leftover = s.leftover := by
  unfold State.writeBack; cases s.config.exDestOrder <;> cases out.result <;> cases out.exNew <;> simp
@[simp] theorem State.writeBack_syncCount (l : Loc) (out : AluOut) : (s.writeBack l out).syncCount = s.syncCount := by
  unfold State.writeBack; cases s.config.exDestOrder <;> cases out.result <;> cases out.exNew <;> simp
@[simp] theorem State.writeBack_subs (l : Loc) (out : AluOut) : (s.writeBack l out).subs = s.subs := by
  unfold State.writeBack; cases s.config.exDestOrder <;> cases out.result <;> cases out.exNew <;> simp
@[simp] theorem State.writeBack_devices (l : Loc) (out : AluOut) : (s.writeBack l out).devices = s.devices := by
  unfold State.writeBack; cases s.config.exDestOrder <;> cases out.result <;> cases out.exNew <;> simp
@[simp] theorem State.writeBack_config (l : Loc) (out : AluOut) : (s.writeBack l out).config = s.config := by
  unfold State.writeBack; cases s.config.exDestOrder <;> cases out.result <;> cases out.exNew <;> simp
@[simp] theorem State.writeBack_deviceDraws (l : Loc) (out : AluOut) : (s.writeBack l out).deviceDraws = s.deviceDraws := by
  unfold State.writeBack; cases s.config.exDestOrder <;> cases out.result <;> cases out.exNew <;> simp
@[simp] theorem State.writeBack_guarding (l : Loc) (out : AluOut) : (s.writeBack l out).guarding = s.guarding := by
  unfold State.writeBack; cases s.config.exDestOrder <;> cases out.result <;> cases out.exNew <;> simp

/-! R286: `State.raise`. -/

@[simp] theorem State.raise_regs (m : Word) : (s.raise m).regs = s.regs := by unfold State.raise; split <;> rfl
@[simp] theorem State.raise_pc (m : Word) : (s.raise m).pc = s.pc := by unfold State.raise; split <;> rfl
@[simp] theorem State.raise_sp (m : Word) : (s.raise m).sp = s.sp := by unfold State.raise; split <;> rfl
@[simp] theorem State.raise_ex (m : Word) : (s.raise m).ex = s.ex := by unfold State.raise; split <;> rfl
@[simp] theorem State.raise_ia (m : Word) : (s.raise m).ia = s.ia := by unfold State.raise; split <;> rfl
@[simp] theorem State.raise_iqEnable (m : Word) : (s.raise m).iqEnable = s.iqEnable := by unfold State.raise; split <;> rfl
@[simp] theorem State.raise_skipping (m : Word) : (s.raise m).skipping = s.skipping := by unfold State.raise; split <;> rfl
@[simp] theorem State.raise_halted (m : Word) : (s.raise m).halted = s.halted := by unfold State.raise; split <;> rfl
@[simp] theorem State.raise_running (m : Word) : (s.raise m).running = s.running := by unfold State.raise; split <;> rfl
@[simp] theorem State.raise_wait (m : Word) : (s.raise m).wait = s.wait := by unfold State.raise; split <;> rfl
@[simp] theorem State.raise_leftover (m : Word) : (s.raise m).leftover = s.leftover := by unfold State.raise; split <;> rfl
@[simp] theorem State.raise_mem (m : Word) : (s.raise m).mem = s.mem := by unfold State.raise; split <;> rfl
@[simp] theorem State.raise_dirty (m : Word) : (s.raise m).dirty = s.dirty := by unfold State.raise; split <;> rfl
@[simp] theorem State.raise_syncCount (m : Word) : (s.raise m).syncCount = s.syncCount := by unfold State.raise; split <;> rfl
@[simp] theorem State.raise_subs (m : Word) : (s.raise m).subs = s.subs := by unfold State.raise; split <;> rfl
@[simp] theorem State.raise_devices (m : Word) : (s.raise m).devices = s.devices := by unfold State.raise; split <;> rfl
@[simp] theorem State.raise_config (m : Word) : (s.raise m).config = s.config := by unfold State.raise; split <;> rfl
@[simp] theorem State.raise_deviceDraws (m : Word) : (s.raise m).deviceDraws = s.deviceDraws := by unfold State.raise; split <;> rfl
@[simp] theorem State.raise_guarding (m : Word) : (s.raise m).guarding = s.guarding := by unfold State.raise; split <;> rfl

/-! R292: `State.deliver`. -/

@[simp] theorem State.deliver_ex : (s.deliver).ex = s.ex := by unfold State.deliver; split <;> rfl
@[simp] theorem State.deliver_ia : (s.deliver).ia = s.ia := by unfold State.deliver; split <;> rfl
@[simp] theorem State.deliver_skipping : (s.deliver).skipping = s.skipping := by unfold State.deliver; split <;> rfl
@[simp] theorem State.deliver_running : (s.deliver).running = s.running := by unfold State.deliver; split <;> rfl
@[simp] theorem State.deliver_wait : (s.deliver).wait = s.wait := by unfold State.deliver; split <;> rfl
@[simp] theorem State.deliver_leftover : (s.deliver).leftover = s.leftover := by unfold State.deliver; split <;> rfl
@[simp] theorem State.deliver_syncCount : (s.deliver).syncCount = s.syncCount := by unfold State.deliver; split <;> rfl
@[simp] theorem State.deliver_subs : (s.deliver).subs = s.subs := by unfold State.deliver; split <;> rfl
@[simp] theorem State.deliver_devices : (s.deliver).devices = s.devices := by unfold State.deliver; split <;> rfl
@[simp] theorem State.deliver_config : (s.deliver).config = s.config := by unfold State.deliver; split <;> rfl
@[simp] theorem State.deliver_deviceDraws : (s.deliver).deviceDraws = s.deviceDraws := by unfold State.deliver; split <;> rfl
@[simp] theorem State.deliver_guarding : (s.deliver).guarding = s.guarding := by unfold State.deliver; split <;> rfl

/-! R354: `State.attemptDelivery`. -/

@[simp] theorem State.attemptDelivery_ex : (s.attemptDelivery).ex = s.ex := by
  unfold State.attemptDelivery; split <;> simp
@[simp] theorem State.attemptDelivery_ia : (s.attemptDelivery).ia = s.ia := by
  unfold State.attemptDelivery; split <;> simp
@[simp] theorem State.attemptDelivery_skipping : (s.attemptDelivery).skipping = s.skipping := by
  unfold State.attemptDelivery; split <;> simp
@[simp] theorem State.attemptDelivery_running : (s.attemptDelivery).running = s.running := by
  unfold State.attemptDelivery; split <;> simp
@[simp] theorem State.attemptDelivery_wait : (s.attemptDelivery).wait = s.wait := by
  unfold State.attemptDelivery; split <;> simp
@[simp] theorem State.attemptDelivery_leftover : (s.attemptDelivery).leftover = s.leftover := by
  unfold State.attemptDelivery; split <;> simp
@[simp] theorem State.attemptDelivery_syncCount : (s.attemptDelivery).syncCount = s.syncCount := by
  unfold State.attemptDelivery; split <;> simp
@[simp] theorem State.attemptDelivery_subs : (s.attemptDelivery).subs = s.subs := by
  unfold State.attemptDelivery; split <;> simp
@[simp] theorem State.attemptDelivery_devices : (s.attemptDelivery).devices = s.devices := by
  unfold State.attemptDelivery; split <;> simp
@[simp] theorem State.attemptDelivery_config : (s.attemptDelivery).config = s.config := by
  unfold State.attemptDelivery; split <;> simp
@[simp] theorem State.attemptDelivery_deviceDraws : (s.attemptDelivery).deviceDraws = s.deviceDraws := by
  unfold State.attemptDelivery; split <;> simp
@[simp] theorem State.attemptDelivery_guarding : (s.attemptDelivery).guarding = s.guarding := by
  unfold State.attemptDelivery; split <;> simp

/-! R67: `State.clearDirty`. -/

@[simp] theorem State.clearDirty_regs (r : Nat) : (s.clearDirty r).regs = s.regs := by unfold State.clearDirty; split <;> rfl
@[simp] theorem State.clearDirty_pc (r : Nat) : (s.clearDirty r).pc = s.pc := by unfold State.clearDirty; split <;> rfl
@[simp] theorem State.clearDirty_sp (r : Nat) : (s.clearDirty r).sp = s.sp := by unfold State.clearDirty; split <;> rfl
@[simp] theorem State.clearDirty_ex (r : Nat) : (s.clearDirty r).ex = s.ex := by unfold State.clearDirty; split <;> rfl
@[simp] theorem State.clearDirty_ia (r : Nat) : (s.clearDirty r).ia = s.ia := by unfold State.clearDirty; split <;> rfl
@[simp] theorem State.clearDirty_iq (r : Nat) : (s.clearDirty r).iq = s.iq := by unfold State.clearDirty; split <;> rfl
@[simp] theorem State.clearDirty_iqEnable (r : Nat) : (s.clearDirty r).iqEnable = s.iqEnable := by unfold State.clearDirty; split <;> rfl
@[simp] theorem State.clearDirty_skipping (r : Nat) : (s.clearDirty r).skipping = s.skipping := by unfold State.clearDirty; split <;> rfl
@[simp] theorem State.clearDirty_halted (r : Nat) : (s.clearDirty r).halted = s.halted := by unfold State.clearDirty; split <;> rfl
@[simp] theorem State.clearDirty_running (r : Nat) : (s.clearDirty r).running = s.running := by unfold State.clearDirty; split <;> rfl
@[simp] theorem State.clearDirty_wait (r : Nat) : (s.clearDirty r).wait = s.wait := by unfold State.clearDirty; split <;> rfl
@[simp] theorem State.clearDirty_leftover (r : Nat) : (s.clearDirty r).leftover = s.leftover := by unfold State.clearDirty; split <;> rfl
@[simp] theorem State.clearDirty_mem (r : Nat) : (s.clearDirty r).mem = s.mem := by unfold State.clearDirty; split <;> rfl
@[simp] theorem State.clearDirty_syncCount (r : Nat) : (s.clearDirty r).syncCount = s.syncCount := by unfold State.clearDirty; split <;> rfl
@[simp] theorem State.clearDirty_subs (r : Nat) : (s.clearDirty r).subs = s.subs := by unfold State.clearDirty; split <;> rfl
@[simp] theorem State.clearDirty_devices (r : Nat) : (s.clearDirty r).devices = s.devices := by unfold State.clearDirty; split <;> rfl
@[simp] theorem State.clearDirty_config (r : Nat) : (s.clearDirty r).config = s.config := by unfold State.clearDirty; split <;> rfl
@[simp] theorem State.clearDirty_deviceDraws (r : Nat) : (s.clearDirty r).deviceDraws = s.deviceDraws := by unfold State.clearDirty; split <;> rfl
@[simp] theorem State.clearDirty_guarding (r : Nat) : (s.clearDirty r).guarding = s.guarding := by unfold State.clearDirty; split <;> rfl

/-! R64: `State.loadFrom`. -/

@[simp] theorem State.loadFrom_regs (base : Word) (ws : List Word) : (s.loadFrom base ws).regs = s.regs := by
  induction ws generalizing s base with
  | nil => rfl
  | cons w ws ih => simp [State.loadFrom, ih]
@[simp] theorem State.loadFrom_pc (base : Word) (ws : List Word) : (s.loadFrom base ws).pc = s.pc := by
  induction ws generalizing s base with
  | nil => rfl
  | cons w ws ih => simp [State.loadFrom, ih]
@[simp] theorem State.loadFrom_sp (base : Word) (ws : List Word) : (s.loadFrom base ws).sp = s.sp := by
  induction ws generalizing s base with
  | nil => rfl
  | cons w ws ih => simp [State.loadFrom, ih]
@[simp] theorem State.loadFrom_ex (base : Word) (ws : List Word) : (s.loadFrom base ws).ex = s.ex := by
  induction ws generalizing s base with
  | nil => rfl
  | cons w ws ih => simp [State.loadFrom, ih]
@[simp] theorem State.loadFrom_ia (base : Word) (ws : List Word) : (s.loadFrom base ws).ia = s.ia := by
  induction ws generalizing s base with
  | nil => rfl
  | cons w ws ih => simp [State.loadFrom, ih]
@[simp] theorem State.loadFrom_iq (base : Word) (ws : List Word) : (s.loadFrom base ws).iq = s.iq := by
  induction ws generalizing s base with
  | nil => rfl
  | cons w ws ih => simp [State.loadFrom, ih]
@[simp] theorem State.loadFrom_iqEnable (base : Word) (ws : List Word) : (s.loadFrom base ws).iqEnable = s.iqEnable := by
  induction ws generalizing s base with
  | nil => rfl
  | cons w ws ih => simp [State.loadFrom, ih]
@[simp] theorem State.loadFrom_skipping (base : Word) (ws : List Word) : (s.loadFrom base ws).skipping = s.skipping := by
  induction ws generalizing s base with
  | nil => rfl
  | cons w ws ih => simp [State.loadFrom, ih]
@[simp] theorem State.loadFrom_halted (base : Word) (ws : List Word) : (s.loadFrom base ws).halted = s.halted := by
  induction ws generalizing s base with
  | nil => rfl
  | cons w ws ih => simp [State.loadFrom, ih]
@[simp] theorem State.loadFrom_running (base : Word) (ws : List Word) : (s.loadFrom base ws).running = s.running := by
  induction ws generalizing s base with
  | nil => rfl
  | cons w ws ih => simp [State.loadFrom, ih]
@[simp] theorem State.loadFrom_wait (base : Word) (ws : List Word) : (s.loadFrom base ws).wait = s.wait := by
  induction ws generalizing s base with
  | nil => rfl
  | cons w ws ih => simp [State.loadFrom, ih]
@[simp] theorem State.loadFrom_leftover (base : Word) (ws : List Word) : (s.loadFrom base ws).leftover = s.leftover := by
  induction ws generalizing s base with
  | nil => rfl
  | cons w ws ih => simp [State.loadFrom, ih]
@[simp] theorem State.loadFrom_syncCount (base : Word) (ws : List Word) : (s.loadFrom base ws).syncCount = s.syncCount := by
  induction ws generalizing s base with
  | nil => rfl
  | cons w ws ih => simp [State.loadFrom, ih]
@[simp] theorem State.loadFrom_subs (base : Word) (ws : List Word) : (s.loadFrom base ws).subs = s.subs := by
  induction ws generalizing s base with
  | nil => rfl
  | cons w ws ih => simp [State.loadFrom, ih]
@[simp] theorem State.loadFrom_devices (base : Word) (ws : List Word) : (s.loadFrom base ws).devices = s.devices := by
  induction ws generalizing s base with
  | nil => rfl
  | cons w ws ih => simp [State.loadFrom, ih]
@[simp] theorem State.loadFrom_config (base : Word) (ws : List Word) : (s.loadFrom base ws).config = s.config := by
  induction ws generalizing s base with
  | nil => rfl
  | cons w ws ih => simp [State.loadFrom, ih]
@[simp] theorem State.loadFrom_deviceDraws (base : Word) (ws : List Word) : (s.loadFrom base ws).deviceDraws = s.deviceDraws := by
  induction ws generalizing s base with
  | nil => rfl
  | cons w ws ih => simp [State.loadFrom, ih]
@[simp] theorem State.loadFrom_guarding (base : Word) (ws : List Word) : (s.loadFrom base ws).guarding = s.guarding := by
  induction ws generalizing s base with
  | nil => rfl
  | cons w ws ih => simp [State.loadFrom, ih]

/-! R64: `State.load`. -/

@[simp] theorem State.load_regs (base : Word) (ws : List Word) : (s.load base ws).regs = s.regs := by simp [State.load]
@[simp] theorem State.load_pc (base : Word) (ws : List Word) : (s.load base ws).pc = s.pc := by simp [State.load]
@[simp] theorem State.load_sp (base : Word) (ws : List Word) : (s.load base ws).sp = s.sp := by simp [State.load]
@[simp] theorem State.load_ex (base : Word) (ws : List Word) : (s.load base ws).ex = s.ex := by simp [State.load]
@[simp] theorem State.load_ia (base : Word) (ws : List Word) : (s.load base ws).ia = s.ia := by simp [State.load]
@[simp] theorem State.load_iq (base : Word) (ws : List Word) : (s.load base ws).iq = s.iq := by simp [State.load]
@[simp] theorem State.load_iqEnable (base : Word) (ws : List Word) : (s.load base ws).iqEnable = s.iqEnable := by simp [State.load]
@[simp] theorem State.load_skipping (base : Word) (ws : List Word) : (s.load base ws).skipping = s.skipping := by simp [State.load]
@[simp] theorem State.load_halted (base : Word) (ws : List Word) : (s.load base ws).halted = s.halted := by simp [State.load]
@[simp] theorem State.load_running (base : Word) (ws : List Word) : (s.load base ws).running = s.running := by simp [State.load]
@[simp] theorem State.load_wait (base : Word) (ws : List Word) : (s.load base ws).wait = s.wait := by simp [State.load]
@[simp] theorem State.load_leftover (base : Word) (ws : List Word) : (s.load base ws).leftover = s.leftover := by simp [State.load]
@[simp] theorem State.load_syncCount (base : Word) (ws : List Word) : (s.load base ws).syncCount = s.syncCount := by simp [State.load]
@[simp] theorem State.load_subs (base : Word) (ws : List Word) : (s.load base ws).subs = s.subs := by simp [State.load]
@[simp] theorem State.load_devices (base : Word) (ws : List Word) : (s.load base ws).devices = s.devices := by simp [State.load]
@[simp] theorem State.load_config (base : Word) (ws : List Word) : (s.load base ws).config = s.config := by simp [State.load]
@[simp] theorem State.load_deviceDraws (base : Word) (ws : List Word) : (s.load base ws).deviceDraws = s.deviceDraws := by simp [State.load]
@[simp] theorem State.load_guarding (base : Word) (ws : List Word) : (s.load base ws).guarding = s.guarding := by simp [State.load]

/-! R346: `State.loadRom`. -/

@[simp] theorem State.loadRom_regs (image : List Word) : (s.loadRom image).regs = s.regs := by simp [State.loadRom]
@[simp] theorem State.loadRom_sp (image : List Word) : (s.loadRom image).sp = s.sp := by simp [State.loadRom]
@[simp] theorem State.loadRom_ex (image : List Word) : (s.loadRom image).ex = s.ex := by simp [State.loadRom]
@[simp] theorem State.loadRom_ia (image : List Word) : (s.loadRom image).ia = s.ia := by simp [State.loadRom]
@[simp] theorem State.loadRom_iq (image : List Word) : (s.loadRom image).iq = s.iq := by simp [State.loadRom]
@[simp] theorem State.loadRom_iqEnable (image : List Word) : (s.loadRom image).iqEnable = s.iqEnable := by simp [State.loadRom]
@[simp] theorem State.loadRom_skipping (image : List Word) : (s.loadRom image).skipping = s.skipping := by simp [State.loadRom]
@[simp] theorem State.loadRom_halted (image : List Word) : (s.loadRom image).halted = s.halted := by simp [State.loadRom]
@[simp] theorem State.loadRom_running (image : List Word) : (s.loadRom image).running = s.running := by simp [State.loadRom]
@[simp] theorem State.loadRom_wait (image : List Word) : (s.loadRom image).wait = s.wait := by simp [State.loadRom]
@[simp] theorem State.loadRom_leftover (image : List Word) : (s.loadRom image).leftover = s.leftover := by simp [State.loadRom]
@[simp] theorem State.loadRom_syncCount (image : List Word) : (s.loadRom image).syncCount = s.syncCount := by simp [State.loadRom]
@[simp] theorem State.loadRom_subs (image : List Word) : (s.loadRom image).subs = s.subs := by simp [State.loadRom]
@[simp] theorem State.loadRom_devices (image : List Word) : (s.loadRom image).devices = s.devices := by simp [State.loadRom]
@[simp] theorem State.loadRom_config (image : List Word) : (s.loadRom image).config = s.config := by simp [State.loadRom]
@[simp] theorem State.loadRom_deviceDraws (image : List Word) : (s.loadRom image).deviceDraws = s.deviceDraws := by simp [State.loadRom]
@[simp] theorem State.loadRom_guarding (image : List Word) : (s.loadRom image).guarding = s.guarding := by simp [State.loadRom]

/-! R69: `State.countUp`. -/

@[simp] theorem State.countUp_regs (rs : List Nat) : (s.countUp rs).regs = s.regs := by
  induction rs generalizing s with
  | nil => rfl
  | cons r rs ih => simp [State.countUp, ih]
@[simp] theorem State.countUp_pc (rs : List Nat) : (s.countUp rs).pc = s.pc := by
  induction rs generalizing s with
  | nil => rfl
  | cons r rs ih => simp [State.countUp, ih]
@[simp] theorem State.countUp_sp (rs : List Nat) : (s.countUp rs).sp = s.sp := by
  induction rs generalizing s with
  | nil => rfl
  | cons r rs ih => simp [State.countUp, ih]
@[simp] theorem State.countUp_ex (rs : List Nat) : (s.countUp rs).ex = s.ex := by
  induction rs generalizing s with
  | nil => rfl
  | cons r rs ih => simp [State.countUp, ih]
@[simp] theorem State.countUp_ia (rs : List Nat) : (s.countUp rs).ia = s.ia := by
  induction rs generalizing s with
  | nil => rfl
  | cons r rs ih => simp [State.countUp, ih]
@[simp] theorem State.countUp_iq (rs : List Nat) : (s.countUp rs).iq = s.iq := by
  induction rs generalizing s with
  | nil => rfl
  | cons r rs ih => simp [State.countUp, ih]
@[simp] theorem State.countUp_iqEnable (rs : List Nat) : (s.countUp rs).iqEnable = s.iqEnable := by
  induction rs generalizing s with
  | nil => rfl
  | cons r rs ih => simp [State.countUp, ih]
@[simp] theorem State.countUp_skipping (rs : List Nat) : (s.countUp rs).skipping = s.skipping := by
  induction rs generalizing s with
  | nil => rfl
  | cons r rs ih => simp [State.countUp, ih]
@[simp] theorem State.countUp_halted (rs : List Nat) : (s.countUp rs).halted = s.halted := by
  induction rs generalizing s with
  | nil => rfl
  | cons r rs ih => simp [State.countUp, ih]
@[simp] theorem State.countUp_running (rs : List Nat) : (s.countUp rs).running = s.running := by
  induction rs generalizing s with
  | nil => rfl
  | cons r rs ih => simp [State.countUp, ih]
@[simp] theorem State.countUp_wait (rs : List Nat) : (s.countUp rs).wait = s.wait := by
  induction rs generalizing s with
  | nil => rfl
  | cons r rs ih => simp [State.countUp, ih]
@[simp] theorem State.countUp_leftover (rs : List Nat) : (s.countUp rs).leftover = s.leftover := by
  induction rs generalizing s with
  | nil => rfl
  | cons r rs ih => simp [State.countUp, ih]
@[simp] theorem State.countUp_mem (rs : List Nat) : (s.countUp rs).mem = s.mem := by
  induction rs generalizing s with
  | nil => rfl
  | cons r rs ih => simp [State.countUp, ih]
@[simp] theorem State.countUp_subs (rs : List Nat) : (s.countUp rs).subs = s.subs := by
  induction rs generalizing s with
  | nil => rfl
  | cons r rs ih => simp [State.countUp, ih]
@[simp] theorem State.countUp_devices (rs : List Nat) : (s.countUp rs).devices = s.devices := by
  induction rs generalizing s with
  | nil => rfl
  | cons r rs ih => simp [State.countUp, ih]
@[simp] theorem State.countUp_config (rs : List Nat) : (s.countUp rs).config = s.config := by
  induction rs generalizing s with
  | nil => rfl
  | cons r rs ih => simp [State.countUp, ih]
@[simp] theorem State.countUp_deviceDraws (rs : List Nat) : (s.countUp rs).deviceDraws = s.deviceDraws := by
  induction rs generalizing s with
  | nil => rfl
  | cons r rs ih => simp [State.countUp, ih]
@[simp] theorem State.countUp_guarding (rs : List Nat) : (s.countUp rs).guarding = s.guarding := by
  induction rs generalizing s with
  | nil => rfl
  | cons r rs ih => simp [State.countUp, ih]

/-! R70: `State.countDown`. -/

@[simp] theorem State.countDown_regs (rs : List Nat) : (s.countDown rs).regs = s.regs := by
  induction rs generalizing s with
  | nil => rfl
  | cons r rs ih => simp [State.countDown, ih]
@[simp] theorem State.countDown_pc (rs : List Nat) : (s.countDown rs).pc = s.pc := by
  induction rs generalizing s with
  | nil => rfl
  | cons r rs ih => simp [State.countDown, ih]
@[simp] theorem State.countDown_sp (rs : List Nat) : (s.countDown rs).sp = s.sp := by
  induction rs generalizing s with
  | nil => rfl
  | cons r rs ih => simp [State.countDown, ih]
@[simp] theorem State.countDown_ex (rs : List Nat) : (s.countDown rs).ex = s.ex := by
  induction rs generalizing s with
  | nil => rfl
  | cons r rs ih => simp [State.countDown, ih]
@[simp] theorem State.countDown_ia (rs : List Nat) : (s.countDown rs).ia = s.ia := by
  induction rs generalizing s with
  | nil => rfl
  | cons r rs ih => simp [State.countDown, ih]
@[simp] theorem State.countDown_iq (rs : List Nat) : (s.countDown rs).iq = s.iq := by
  induction rs generalizing s with
  | nil => rfl
  | cons r rs ih => simp [State.countDown, ih]
@[simp] theorem State.countDown_iqEnable (rs : List Nat) : (s.countDown rs).iqEnable = s.iqEnable := by
  induction rs generalizing s with
  | nil => rfl
  | cons r rs ih => simp [State.countDown, ih]
@[simp] theorem State.countDown_skipping (rs : List Nat) : (s.countDown rs).skipping = s.skipping := by
  induction rs generalizing s with
  | nil => rfl
  | cons r rs ih => simp [State.countDown, ih]
@[simp] theorem State.countDown_halted (rs : List Nat) : (s.countDown rs).halted = s.halted := by
  induction rs generalizing s with
  | nil => rfl
  | cons r rs ih => simp [State.countDown, ih]
@[simp] theorem State.countDown_running (rs : List Nat) : (s.countDown rs).running = s.running := by
  induction rs generalizing s with
  | nil => rfl
  | cons r rs ih => simp [State.countDown, ih]
@[simp] theorem State.countDown_wait (rs : List Nat) : (s.countDown rs).wait = s.wait := by
  induction rs generalizing s with
  | nil => rfl
  | cons r rs ih => simp [State.countDown, ih]
@[simp] theorem State.countDown_leftover (rs : List Nat) : (s.countDown rs).leftover = s.leftover := by
  induction rs generalizing s with
  | nil => rfl
  | cons r rs ih => simp [State.countDown, ih]
@[simp] theorem State.countDown_mem (rs : List Nat) : (s.countDown rs).mem = s.mem := by
  induction rs generalizing s with
  | nil => rfl
  | cons r rs ih => simp [State.countDown, ih]
@[simp] theorem State.countDown_dirty (rs : List Nat) : (s.countDown rs).dirty = s.dirty := by
  induction rs generalizing s with
  | nil => rfl
  | cons r rs ih => simp [State.countDown, ih]
@[simp] theorem State.countDown_subs (rs : List Nat) : (s.countDown rs).subs = s.subs := by
  induction rs generalizing s with
  | nil => rfl
  | cons r rs ih => simp [State.countDown, ih]
@[simp] theorem State.countDown_devices (rs : List Nat) : (s.countDown rs).devices = s.devices := by
  induction rs generalizing s with
  | nil => rfl
  | cons r rs ih => simp [State.countDown, ih]
@[simp] theorem State.countDown_config (rs : List Nat) : (s.countDown rs).config = s.config := by
  induction rs generalizing s with
  | nil => rfl
  | cons r rs ih => simp [State.countDown, ih]
@[simp] theorem State.countDown_deviceDraws (rs : List Nat) : (s.countDown rs).deviceDraws = s.deviceDraws := by
  induction rs generalizing s with
  | nil => rfl
  | cons r rs ih => simp [State.countDown, ih]
@[simp] theorem State.countDown_guarding (rs : List Nat) : (s.countDown rs).guarding = s.guarding := by
  induction rs generalizing s with
  | nil => rfl
  | cons r rs ih => simp [State.countDown, ih]

/-! R69: `State.register`. -/

@[simp] theorem State.register_regs (k : Nat) : (s.register k).regs = s.regs := by
  unfold State.register; split <;> (try split) <;> simp
@[simp] theorem State.register_pc (k : Nat) : (s.register k).pc = s.pc := by
  unfold State.register; split <;> (try split) <;> simp
@[simp] theorem State.register_sp (k : Nat) : (s.register k).sp = s.sp := by
  unfold State.register; split <;> (try split) <;> simp
@[simp] theorem State.register_ex (k : Nat) : (s.register k).ex = s.ex := by
  unfold State.register; split <;> (try split) <;> simp
@[simp] theorem State.register_ia (k : Nat) : (s.register k).ia = s.ia := by
  unfold State.register; split <;> (try split) <;> simp
@[simp] theorem State.register_iq (k : Nat) : (s.register k).iq = s.iq := by
  unfold State.register; split <;> (try split) <;> simp
@[simp] theorem State.register_iqEnable (k : Nat) : (s.register k).iqEnable = s.iqEnable := by
  unfold State.register; split <;> (try split) <;> simp
@[simp] theorem State.register_skipping (k : Nat) : (s.register k).skipping = s.skipping := by
  unfold State.register; split <;> (try split) <;> simp
@[simp] theorem State.register_halted (k : Nat) : (s.register k).halted = s.halted := by
  unfold State.register; split <;> (try split) <;> simp
@[simp] theorem State.register_running (k : Nat) : (s.register k).running = s.running := by
  unfold State.register; split <;> (try split) <;> simp
@[simp] theorem State.register_wait (k : Nat) : (s.register k).wait = s.wait := by
  unfold State.register; split <;> (try split) <;> simp
@[simp] theorem State.register_leftover (k : Nat) : (s.register k).leftover = s.leftover := by
  unfold State.register; split <;> (try split) <;> simp
@[simp] theorem State.register_mem (k : Nat) : (s.register k).mem = s.mem := by
  unfold State.register; split <;> (try split) <;> simp
@[simp] theorem State.register_devices (k : Nat) : (s.register k).devices = s.devices := by
  unfold State.register; split <;> (try split) <;> simp
@[simp] theorem State.register_config (k : Nat) : (s.register k).config = s.config := by
  unfold State.register; split <;> (try split) <;> simp
@[simp] theorem State.register_deviceDraws (k : Nat) : (s.register k).deviceDraws = s.deviceDraws := by
  unfold State.register; split <;> (try split) <;> simp
@[simp] theorem State.register_guarding (k : Nat) : (s.register k).guarding = s.guarding := by
  unfold State.register; split <;> (try split) <;> simp

/-! R70: `State.unregister`. -/

@[simp] theorem State.unregister_regs (k : Nat) : (s.unregister k).regs = s.regs := by
  unfold State.unregister; split <;> (try split) <;> simp
@[simp] theorem State.unregister_pc (k : Nat) : (s.unregister k).pc = s.pc := by
  unfold State.unregister; split <;> (try split) <;> simp
@[simp] theorem State.unregister_sp (k : Nat) : (s.unregister k).sp = s.sp := by
  unfold State.unregister; split <;> (try split) <;> simp
@[simp] theorem State.unregister_ex (k : Nat) : (s.unregister k).ex = s.ex := by
  unfold State.unregister; split <;> (try split) <;> simp
@[simp] theorem State.unregister_ia (k : Nat) : (s.unregister k).ia = s.ia := by
  unfold State.unregister; split <;> (try split) <;> simp
@[simp] theorem State.unregister_iq (k : Nat) : (s.unregister k).iq = s.iq := by
  unfold State.unregister; split <;> (try split) <;> simp
@[simp] theorem State.unregister_iqEnable (k : Nat) : (s.unregister k).iqEnable = s.iqEnable := by
  unfold State.unregister; split <;> (try split) <;> simp
@[simp] theorem State.unregister_skipping (k : Nat) : (s.unregister k).skipping = s.skipping := by
  unfold State.unregister; split <;> (try split) <;> simp
@[simp] theorem State.unregister_halted (k : Nat) : (s.unregister k).halted = s.halted := by
  unfold State.unregister; split <;> (try split) <;> simp
@[simp] theorem State.unregister_running (k : Nat) : (s.unregister k).running = s.running := by
  unfold State.unregister; split <;> (try split) <;> simp
@[simp] theorem State.unregister_wait (k : Nat) : (s.unregister k).wait = s.wait := by
  unfold State.unregister; split <;> (try split) <;> simp
@[simp] theorem State.unregister_leftover (k : Nat) : (s.unregister k).leftover = s.leftover := by
  unfold State.unregister; split <;> (try split) <;> simp
@[simp] theorem State.unregister_mem (k : Nat) : (s.unregister k).mem = s.mem := by
  unfold State.unregister; split <;> (try split) <;> simp
@[simp] theorem State.unregister_dirty (k : Nat) : (s.unregister k).dirty = s.dirty := by
  unfold State.unregister; split <;> (try split) <;> simp
@[simp] theorem State.unregister_devices (k : Nat) : (s.unregister k).devices = s.devices := by
  unfold State.unregister; split <;> (try split) <;> simp
@[simp] theorem State.unregister_config (k : Nat) : (s.unregister k).config = s.config := by
  unfold State.unregister; split <;> (try split) <;> simp
@[simp] theorem State.unregister_deviceDraws (k : Nat) : (s.unregister k).deviceDraws = s.deviceDraws := by
  unfold State.unregister; split <;> (try split) <;> simp
@[simp] theorem State.unregister_guarding (k : Nat) : (s.unregister k).guarding = s.guarding := by
  unfold State.unregister; split <;> (try split) <;> simp

/-! R71: `State.registerSync`. -/

@[simp] theorem State.registerSync_regs (owner : Nat) (base : Word) (length : Nat) : (s.registerSync owner base length).regs = s.regs := by
  simp [State.registerSync]
@[simp] theorem State.registerSync_pc (owner : Nat) (base : Word) (length : Nat) : (s.registerSync owner base length).pc = s.pc := by
  simp [State.registerSync]
@[simp] theorem State.registerSync_sp (owner : Nat) (base : Word) (length : Nat) : (s.registerSync owner base length).sp = s.sp := by
  simp [State.registerSync]
@[simp] theorem State.registerSync_ex (owner : Nat) (base : Word) (length : Nat) : (s.registerSync owner base length).ex = s.ex := by
  simp [State.registerSync]
@[simp] theorem State.registerSync_ia (owner : Nat) (base : Word) (length : Nat) : (s.registerSync owner base length).ia = s.ia := by
  simp [State.registerSync]
@[simp] theorem State.registerSync_iq (owner : Nat) (base : Word) (length : Nat) : (s.registerSync owner base length).iq = s.iq := by
  simp [State.registerSync]
@[simp] theorem State.registerSync_iqEnable (owner : Nat) (base : Word) (length : Nat) : (s.registerSync owner base length).iqEnable = s.iqEnable := by
  simp [State.registerSync]
@[simp] theorem State.registerSync_skipping (owner : Nat) (base : Word) (length : Nat) : (s.registerSync owner base length).skipping = s.skipping := by
  simp [State.registerSync]
@[simp] theorem State.registerSync_halted (owner : Nat) (base : Word) (length : Nat) : (s.registerSync owner base length).halted = s.halted := by
  simp [State.registerSync]
@[simp] theorem State.registerSync_running (owner : Nat) (base : Word) (length : Nat) : (s.registerSync owner base length).running = s.running := by
  simp [State.registerSync]
@[simp] theorem State.registerSync_wait (owner : Nat) (base : Word) (length : Nat) : (s.registerSync owner base length).wait = s.wait := by
  simp [State.registerSync]
@[simp] theorem State.registerSync_leftover (owner : Nat) (base : Word) (length : Nat) : (s.registerSync owner base length).leftover = s.leftover := by
  simp [State.registerSync]
@[simp] theorem State.registerSync_mem (owner : Nat) (base : Word) (length : Nat) : (s.registerSync owner base length).mem = s.mem := by
  simp [State.registerSync]
@[simp] theorem State.registerSync_devices (owner : Nat) (base : Word) (length : Nat) : (s.registerSync owner base length).devices = s.devices := by
  simp [State.registerSync]
@[simp] theorem State.registerSync_config (owner : Nat) (base : Word) (length : Nat) : (s.registerSync owner base length).config = s.config := by
  simp [State.registerSync]
@[simp] theorem State.registerSync_deviceDraws (owner : Nat) (base : Word) (length : Nat) : (s.registerSync owner base length).deviceDraws = s.deviceDraws := by
  simp [State.registerSync]
@[simp] theorem State.registerSync_guarding (owner : Nat) (base : Word) (length : Nat) : (s.registerSync owner base length).guarding = s.guarding := by
  simp [State.registerSync]

/-! R40: `State.unregisterOwned`. -/

@[simp] theorem State.unregisterOwned_regs (owner n : Nat) : (s.unregisterOwned owner n).regs = s.regs := by
  induction n with
  | zero => rfl
  | succ n ih => simp only [State.unregisterOwned]; split <;> (try split) <;> simp [ih]
@[simp] theorem State.unregisterOwned_pc (owner n : Nat) : (s.unregisterOwned owner n).pc = s.pc := by
  induction n with
  | zero => rfl
  | succ n ih => simp only [State.unregisterOwned]; split <;> (try split) <;> simp [ih]
@[simp] theorem State.unregisterOwned_sp (owner n : Nat) : (s.unregisterOwned owner n).sp = s.sp := by
  induction n with
  | zero => rfl
  | succ n ih => simp only [State.unregisterOwned]; split <;> (try split) <;> simp [ih]
@[simp] theorem State.unregisterOwned_ex (owner n : Nat) : (s.unregisterOwned owner n).ex = s.ex := by
  induction n with
  | zero => rfl
  | succ n ih => simp only [State.unregisterOwned]; split <;> (try split) <;> simp [ih]
@[simp] theorem State.unregisterOwned_ia (owner n : Nat) : (s.unregisterOwned owner n).ia = s.ia := by
  induction n with
  | zero => rfl
  | succ n ih => simp only [State.unregisterOwned]; split <;> (try split) <;> simp [ih]
@[simp] theorem State.unregisterOwned_iq (owner n : Nat) : (s.unregisterOwned owner n).iq = s.iq := by
  induction n with
  | zero => rfl
  | succ n ih => simp only [State.unregisterOwned]; split <;> (try split) <;> simp [ih]
@[simp] theorem State.unregisterOwned_iqEnable (owner n : Nat) : (s.unregisterOwned owner n).iqEnable = s.iqEnable := by
  induction n with
  | zero => rfl
  | succ n ih => simp only [State.unregisterOwned]; split <;> (try split) <;> simp [ih]
@[simp] theorem State.unregisterOwned_skipping (owner n : Nat) : (s.unregisterOwned owner n).skipping = s.skipping := by
  induction n with
  | zero => rfl
  | succ n ih => simp only [State.unregisterOwned]; split <;> (try split) <;> simp [ih]
@[simp] theorem State.unregisterOwned_halted (owner n : Nat) : (s.unregisterOwned owner n).halted = s.halted := by
  induction n with
  | zero => rfl
  | succ n ih => simp only [State.unregisterOwned]; split <;> (try split) <;> simp [ih]
@[simp] theorem State.unregisterOwned_running (owner n : Nat) : (s.unregisterOwned owner n).running = s.running := by
  induction n with
  | zero => rfl
  | succ n ih => simp only [State.unregisterOwned]; split <;> (try split) <;> simp [ih]
@[simp] theorem State.unregisterOwned_wait (owner n : Nat) : (s.unregisterOwned owner n).wait = s.wait := by
  induction n with
  | zero => rfl
  | succ n ih => simp only [State.unregisterOwned]; split <;> (try split) <;> simp [ih]
@[simp] theorem State.unregisterOwned_leftover (owner n : Nat) : (s.unregisterOwned owner n).leftover = s.leftover := by
  induction n with
  | zero => rfl
  | succ n ih => simp only [State.unregisterOwned]; split <;> (try split) <;> simp [ih]
@[simp] theorem State.unregisterOwned_mem (owner n : Nat) : (s.unregisterOwned owner n).mem = s.mem := by
  induction n with
  | zero => rfl
  | succ n ih => simp only [State.unregisterOwned]; split <;> (try split) <;> simp [ih]
@[simp] theorem State.unregisterOwned_dirty (owner n : Nat) : (s.unregisterOwned owner n).dirty = s.dirty := by
  induction n with
  | zero => rfl
  | succ n ih => simp only [State.unregisterOwned]; split <;> (try split) <;> simp [ih]
@[simp] theorem State.unregisterOwned_devices (owner n : Nat) : (s.unregisterOwned owner n).devices = s.devices := by
  induction n with
  | zero => rfl
  | succ n ih => simp only [State.unregisterOwned]; split <;> (try split) <;> simp [ih]
@[simp] theorem State.unregisterOwned_config (owner n : Nat) : (s.unregisterOwned owner n).config = s.config := by
  induction n with
  | zero => rfl
  | succ n ih => simp only [State.unregisterOwned]; split <;> (try split) <;> simp [ih]
@[simp] theorem State.unregisterOwned_deviceDraws (owner n : Nat) : (s.unregisterOwned owner n).deviceDraws = s.deviceDraws := by
  induction n with
  | zero => rfl
  | succ n ih => simp only [State.unregisterOwned]; split <;> (try split) <;> simp [ih]
@[simp] theorem State.unregisterOwned_guarding (owner n : Nat) : (s.unregisterOwned owner n).guarding = s.guarding := by
  induction n with
  | zero => rfl
  | succ n ih => simp only [State.unregisterOwned]; split <;> (try split) <;> simp [ih]

/-! R301: `State.releaseSubscriptions`. -/

@[simp] theorem State.releaseSubscriptions_regs (node : Nat) : (s.releaseSubscriptions node).regs = s.regs := by
  simp [State.releaseSubscriptions]
@[simp] theorem State.releaseSubscriptions_pc (node : Nat) : (s.releaseSubscriptions node).pc = s.pc := by
  simp [State.releaseSubscriptions]
@[simp] theorem State.releaseSubscriptions_sp (node : Nat) : (s.releaseSubscriptions node).sp = s.sp := by
  simp [State.releaseSubscriptions]
@[simp] theorem State.releaseSubscriptions_ex (node : Nat) : (s.releaseSubscriptions node).ex = s.ex := by
  simp [State.releaseSubscriptions]
@[simp] theorem State.releaseSubscriptions_ia (node : Nat) : (s.releaseSubscriptions node).ia = s.ia := by
  simp [State.releaseSubscriptions]
@[simp] theorem State.releaseSubscriptions_iq (node : Nat) : (s.releaseSubscriptions node).iq = s.iq := by
  simp [State.releaseSubscriptions]
@[simp] theorem State.releaseSubscriptions_iqEnable (node : Nat) : (s.releaseSubscriptions node).iqEnable = s.iqEnable := by
  simp [State.releaseSubscriptions]
@[simp] theorem State.releaseSubscriptions_skipping (node : Nat) : (s.releaseSubscriptions node).skipping = s.skipping := by
  simp [State.releaseSubscriptions]
@[simp] theorem State.releaseSubscriptions_halted (node : Nat) : (s.releaseSubscriptions node).halted = s.halted := by
  simp [State.releaseSubscriptions]
@[simp] theorem State.releaseSubscriptions_running (node : Nat) : (s.releaseSubscriptions node).running = s.running := by
  simp [State.releaseSubscriptions]
@[simp] theorem State.releaseSubscriptions_wait (node : Nat) : (s.releaseSubscriptions node).wait = s.wait := by
  simp [State.releaseSubscriptions]
@[simp] theorem State.releaseSubscriptions_leftover (node : Nat) : (s.releaseSubscriptions node).leftover = s.leftover := by
  simp [State.releaseSubscriptions]
@[simp] theorem State.releaseSubscriptions_mem (node : Nat) : (s.releaseSubscriptions node).mem = s.mem := by
  simp [State.releaseSubscriptions]
@[simp] theorem State.releaseSubscriptions_dirty (node : Nat) : (s.releaseSubscriptions node).dirty = s.dirty := by
  simp [State.releaseSubscriptions]
@[simp] theorem State.releaseSubscriptions_devices (node : Nat) : (s.releaseSubscriptions node).devices = s.devices := by
  simp [State.releaseSubscriptions]
@[simp] theorem State.releaseSubscriptions_config (node : Nat) : (s.releaseSubscriptions node).config = s.config := by
  simp [State.releaseSubscriptions]
@[simp] theorem State.releaseSubscriptions_deviceDraws (node : Nat) : (s.releaseSubscriptions node).deviceDraws = s.deviceDraws := by
  simp [State.releaseSubscriptions]
@[simp] theorem State.releaseSubscriptions_guarding (node : Nat) : (s.releaseSubscriptions node).guarding = s.guarding := by
  simp [State.releaseSubscriptions]

/-! R255: `State.deviceOp`. -/

@[simp] theorem State.deviceOp_sp (node : Nat) (op : DeviceOp) : (s.deviceOp node op).sp = s.sp := by
  cases op <;> simp only [State.deviceOp] <;> (try split) <;> simp
@[simp] theorem State.deviceOp_ex (node : Nat) (op : DeviceOp) : (s.deviceOp node op).ex = s.ex := by
  cases op <;> simp only [State.deviceOp] <;> (try split) <;> simp
@[simp] theorem State.deviceOp_ia (node : Nat) (op : DeviceOp) : (s.deviceOp node op).ia = s.ia := by
  cases op <;> simp only [State.deviceOp] <;> (try split) <;> simp
@[simp] theorem State.deviceOp_iqEnable (node : Nat) (op : DeviceOp) : (s.deviceOp node op).iqEnable = s.iqEnable := by
  cases op <;> simp only [State.deviceOp] <;> (try split) <;> simp
@[simp] theorem State.deviceOp_skipping (node : Nat) (op : DeviceOp) : (s.deviceOp node op).skipping = s.skipping := by
  cases op <;> simp only [State.deviceOp] <;> (try split) <;> simp
@[simp] theorem State.deviceOp_halted (node : Nat) (op : DeviceOp) : (s.deviceOp node op).halted = s.halted := by
  cases op <;> simp only [State.deviceOp] <;> (try split) <;> simp
@[simp] theorem State.deviceOp_running (node : Nat) (op : DeviceOp) : (s.deviceOp node op).running = s.running := by
  cases op <;> simp only [State.deviceOp] <;> (try split) <;> simp
@[simp] theorem State.deviceOp_leftover (node : Nat) (op : DeviceOp) : (s.deviceOp node op).leftover = s.leftover := by
  cases op <;> simp only [State.deviceOp] <;> (try split) <;> simp
@[simp] theorem State.deviceOp_config (node : Nat) (op : DeviceOp) : (s.deviceOp node op).config = s.config := by
  cases op <;> simp only [State.deviceOp] <;> (try split) <;> simp
@[simp] theorem State.deviceOp_deviceDraws (node : Nat) (op : DeviceOp) : (s.deviceOp node op).deviceDraws = s.deviceDraws := by
  cases op <;> simp only [State.deviceOp] <;> (try split) <;> simp
@[simp] theorem State.deviceOp_guarding (node : Nat) (op : DeviceOp) : (s.deviceOp node op).guarding = s.guarding := by
  cases op <;> simp only [State.deviceOp] <;> (try split) <;> simp

/-! R255: `State.deviceOps`. -/

@[simp] theorem State.deviceOps_sp (node : Nat) (ops : List DeviceOp) : (s.deviceOps node ops).sp = s.sp := by
  induction ops generalizing s with
  | nil => rfl
  | cons op ops ih => simp [State.deviceOps, ih]
@[simp] theorem State.deviceOps_ex (node : Nat) (ops : List DeviceOp) : (s.deviceOps node ops).ex = s.ex := by
  induction ops generalizing s with
  | nil => rfl
  | cons op ops ih => simp [State.deviceOps, ih]
@[simp] theorem State.deviceOps_ia (node : Nat) (ops : List DeviceOp) : (s.deviceOps node ops).ia = s.ia := by
  induction ops generalizing s with
  | nil => rfl
  | cons op ops ih => simp [State.deviceOps, ih]
@[simp] theorem State.deviceOps_iqEnable (node : Nat) (ops : List DeviceOp) : (s.deviceOps node ops).iqEnable = s.iqEnable := by
  induction ops generalizing s with
  | nil => rfl
  | cons op ops ih => simp [State.deviceOps, ih]
@[simp] theorem State.deviceOps_skipping (node : Nat) (ops : List DeviceOp) : (s.deviceOps node ops).skipping = s.skipping := by
  induction ops generalizing s with
  | nil => rfl
  | cons op ops ih => simp [State.deviceOps, ih]
@[simp] theorem State.deviceOps_halted (node : Nat) (ops : List DeviceOp) : (s.deviceOps node ops).halted = s.halted := by
  induction ops generalizing s with
  | nil => rfl
  | cons op ops ih => simp [State.deviceOps, ih]
@[simp] theorem State.deviceOps_running (node : Nat) (ops : List DeviceOp) : (s.deviceOps node ops).running = s.running := by
  induction ops generalizing s with
  | nil => rfl
  | cons op ops ih => simp [State.deviceOps, ih]
@[simp] theorem State.deviceOps_leftover (node : Nat) (ops : List DeviceOp) : (s.deviceOps node ops).leftover = s.leftover := by
  induction ops generalizing s with
  | nil => rfl
  | cons op ops ih => simp [State.deviceOps, ih]
@[simp] theorem State.deviceOps_config (node : Nat) (ops : List DeviceOp) : (s.deviceOps node ops).config = s.config := by
  induction ops generalizing s with
  | nil => rfl
  | cons op ops ih => simp [State.deviceOps, ih]
@[simp] theorem State.deviceOps_deviceDraws (node : Nat) (ops : List DeviceOp) : (s.deviceOps node ops).deviceDraws = s.deviceDraws := by
  induction ops generalizing s with
  | nil => rfl
  | cons op ops ih => simp [State.deviceOps, ih]
@[simp] theorem State.deviceOps_guarding (node : Nat) (ops : List DeviceOp) : (s.deviceOps node ops).guarding = s.guarding := by
  induction ops generalizing s with
  | nil => rfl
  | cons op ops ih => simp [State.deviceOps, ih]

/-! R255: `State.internalOps`. -/

@[simp] theorem State.internalOps_regs (node : Nat) (ops : List InternalOp) : (s.internalOps node ops).regs = s.regs := by
  induction ops generalizing s with
  | nil => rfl
  | cons op ops ih => simp [State.internalOps, ih]
@[simp] theorem State.internalOps_pc (node : Nat) (ops : List InternalOp) : (s.internalOps node ops).pc = s.pc := by
  induction ops generalizing s with
  | nil => rfl
  | cons op ops ih => simp [State.internalOps, ih]
@[simp] theorem State.internalOps_sp (node : Nat) (ops : List InternalOp) : (s.internalOps node ops).sp = s.sp := by
  induction ops generalizing s with
  | nil => rfl
  | cons op ops ih => simp [State.internalOps, ih]
@[simp] theorem State.internalOps_ex (node : Nat) (ops : List InternalOp) : (s.internalOps node ops).ex = s.ex := by
  induction ops generalizing s with
  | nil => rfl
  | cons op ops ih => simp [State.internalOps, ih]
@[simp] theorem State.internalOps_ia (node : Nat) (ops : List InternalOp) : (s.internalOps node ops).ia = s.ia := by
  induction ops generalizing s with
  | nil => rfl
  | cons op ops ih => simp [State.internalOps, ih]
@[simp] theorem State.internalOps_iq (node : Nat) (ops : List InternalOp) : (s.internalOps node ops).iq = s.iq := by
  induction ops generalizing s with
  | nil => rfl
  | cons op ops ih => simp [State.internalOps, ih]
@[simp] theorem State.internalOps_iqEnable (node : Nat) (ops : List InternalOp) : (s.internalOps node ops).iqEnable = s.iqEnable := by
  induction ops generalizing s with
  | nil => rfl
  | cons op ops ih => simp [State.internalOps, ih]
@[simp] theorem State.internalOps_skipping (node : Nat) (ops : List InternalOp) : (s.internalOps node ops).skipping = s.skipping := by
  induction ops generalizing s with
  | nil => rfl
  | cons op ops ih => simp [State.internalOps, ih]
@[simp] theorem State.internalOps_halted (node : Nat) (ops : List InternalOp) : (s.internalOps node ops).halted = s.halted := by
  induction ops generalizing s with
  | nil => rfl
  | cons op ops ih => simp [State.internalOps, ih]
@[simp] theorem State.internalOps_running (node : Nat) (ops : List InternalOp) : (s.internalOps node ops).running = s.running := by
  induction ops generalizing s with
  | nil => rfl
  | cons op ops ih => simp [State.internalOps, ih]
@[simp] theorem State.internalOps_wait (node : Nat) (ops : List InternalOp) : (s.internalOps node ops).wait = s.wait := by
  induction ops generalizing s with
  | nil => rfl
  | cons op ops ih => simp [State.internalOps, ih]
@[simp] theorem State.internalOps_leftover (node : Nat) (ops : List InternalOp) : (s.internalOps node ops).leftover = s.leftover := by
  induction ops generalizing s with
  | nil => rfl
  | cons op ops ih => simp [State.internalOps, ih]
@[simp] theorem State.internalOps_mem (node : Nat) (ops : List InternalOp) : (s.internalOps node ops).mem = s.mem := by
  induction ops generalizing s with
  | nil => rfl
  | cons op ops ih => simp [State.internalOps, ih]
@[simp] theorem State.internalOps_dirty (node : Nat) (ops : List InternalOp) : (s.internalOps node ops).dirty = s.dirty := by
  induction ops generalizing s with
  | nil => rfl
  | cons op ops ih => simp [State.internalOps, ih]
@[simp] theorem State.internalOps_syncCount (node : Nat) (ops : List InternalOp) : (s.internalOps node ops).syncCount = s.syncCount := by
  induction ops generalizing s with
  | nil => rfl
  | cons op ops ih => simp [State.internalOps, ih]
@[simp] theorem State.internalOps_subs (node : Nat) (ops : List InternalOp) : (s.internalOps node ops).subs = s.subs := by
  induction ops generalizing s with
  | nil => rfl
  | cons op ops ih => simp [State.internalOps, ih]
@[simp] theorem State.internalOps_config (node : Nat) (ops : List InternalOp) : (s.internalOps node ops).config = s.config := by
  induction ops generalizing s with
  | nil => rfl
  | cons op ops ih => simp [State.internalOps, ih]
@[simp] theorem State.internalOps_deviceDraws (node : Nat) (ops : List InternalOp) : (s.internalOps node ops).deviceDraws = s.deviceDraws := by
  induction ops generalizing s with
  | nil => rfl
  | cons op ops ih => simp [State.internalOps, ih]
@[simp] theorem State.internalOps_guarding (node : Nat) (ops : List InternalOp) : (s.internalOps node ops).guarding = s.guarding := by
  induction ops generalizing s with
  | nil => rfl
  | cons op ops ih => simp [State.internalOps, ih]

/-! R301: `State.respond`. -/

@[simp] theorem State.respond_regs (e : DeviceEvent) (node : Nat) : (s.respond e node).regs = s.regs := by
  simp [State.respond]
@[simp] theorem State.respond_pc (e : DeviceEvent) (node : Nat) : (s.respond e node).pc = s.pc := by
  simp [State.respond]
@[simp] theorem State.respond_sp (e : DeviceEvent) (node : Nat) : (s.respond e node).sp = s.sp := by
  simp [State.respond]
@[simp] theorem State.respond_ex (e : DeviceEvent) (node : Nat) : (s.respond e node).ex = s.ex := by
  simp [State.respond]
@[simp] theorem State.respond_ia (e : DeviceEvent) (node : Nat) : (s.respond e node).ia = s.ia := by
  simp [State.respond]
@[simp] theorem State.respond_iq (e : DeviceEvent) (node : Nat) : (s.respond e node).iq = s.iq := by
  simp [State.respond]
@[simp] theorem State.respond_iqEnable (e : DeviceEvent) (node : Nat) : (s.respond e node).iqEnable = s.iqEnable := by
  simp [State.respond]
@[simp] theorem State.respond_skipping (e : DeviceEvent) (node : Nat) : (s.respond e node).skipping = s.skipping := by
  simp [State.respond]
@[simp] theorem State.respond_halted (e : DeviceEvent) (node : Nat) : (s.respond e node).halted = s.halted := by
  simp [State.respond]
@[simp] theorem State.respond_running (e : DeviceEvent) (node : Nat) : (s.respond e node).running = s.running := by
  simp [State.respond]
@[simp] theorem State.respond_wait (e : DeviceEvent) (node : Nat) : (s.respond e node).wait = s.wait := by
  simp [State.respond]
@[simp] theorem State.respond_leftover (e : DeviceEvent) (node : Nat) : (s.respond e node).leftover = s.leftover := by
  simp [State.respond]
@[simp] theorem State.respond_mem (e : DeviceEvent) (node : Nat) : (s.respond e node).mem = s.mem := by
  simp [State.respond]
@[simp] theorem State.respond_dirty (e : DeviceEvent) (node : Nat) : (s.respond e node).dirty = s.dirty := by
  simp [State.respond]
@[simp] theorem State.respond_syncCount (e : DeviceEvent) (node : Nat) : (s.respond e node).syncCount = s.syncCount := by
  simp [State.respond]
@[simp] theorem State.respond_subs (e : DeviceEvent) (node : Nat) : (s.respond e node).subs = s.subs := by
  simp [State.respond]
@[simp] theorem State.respond_config (e : DeviceEvent) (node : Nat) : (s.respond e node).config = s.config := by
  simp [State.respond]
@[simp] theorem State.respond_guarding (e : DeviceEvent) (node : Nat) : (s.respond e node).guarding = s.guarding := by
  simp [State.respond]

/-! R301: `State.deviceEvent`. -/

@[simp] theorem State.deviceEvent_regs (e : DeviceEvent) (node : Nat) : (s.deviceEvent e node).regs = s.regs := by
  unfold State.deviceEvent; repeat' split
  all_goals simp
@[simp] theorem State.deviceEvent_sp (e : DeviceEvent) (node : Nat) : (s.deviceEvent e node).sp = s.sp := by
  unfold State.deviceEvent; repeat' split
  all_goals simp
@[simp] theorem State.deviceEvent_ex (e : DeviceEvent) (node : Nat) : (s.deviceEvent e node).ex = s.ex := by
  unfold State.deviceEvent; repeat' split
  all_goals simp
@[simp] theorem State.deviceEvent_ia (e : DeviceEvent) (node : Nat) : (s.deviceEvent e node).ia = s.ia := by
  unfold State.deviceEvent; repeat' split
  all_goals simp
@[simp] theorem State.deviceEvent_iq (e : DeviceEvent) (node : Nat) : (s.deviceEvent e node).iq = s.iq := by
  unfold State.deviceEvent; repeat' split
  all_goals simp
@[simp] theorem State.deviceEvent_iqEnable (e : DeviceEvent) (node : Nat) : (s.deviceEvent e node).iqEnable = s.iqEnable := by
  unfold State.deviceEvent; repeat' split
  all_goals simp
@[simp] theorem State.deviceEvent_skipping (e : DeviceEvent) (node : Nat) : (s.deviceEvent e node).skipping = s.skipping := by
  unfold State.deviceEvent; repeat' split
  all_goals simp
@[simp] theorem State.deviceEvent_halted (e : DeviceEvent) (node : Nat) : (s.deviceEvent e node).halted = s.halted := by
  unfold State.deviceEvent; repeat' split
  all_goals simp
@[simp] theorem State.deviceEvent_running (e : DeviceEvent) (node : Nat) : (s.deviceEvent e node).running = s.running := by
  unfold State.deviceEvent; repeat' split
  all_goals simp
@[simp] theorem State.deviceEvent_wait (e : DeviceEvent) (node : Nat) : (s.deviceEvent e node).wait = s.wait := by
  unfold State.deviceEvent; repeat' split
  all_goals simp
@[simp] theorem State.deviceEvent_leftover (e : DeviceEvent) (node : Nat) : (s.deviceEvent e node).leftover = s.leftover := by
  unfold State.deviceEvent; repeat' split
  all_goals simp
@[simp] theorem State.deviceEvent_config (e : DeviceEvent) (node : Nat) : (s.deviceEvent e node).config = s.config := by
  unfold State.deviceEvent; repeat' split
  all_goals simp
@[simp] theorem State.deviceEvent_guarding (e : DeviceEvent) (node : Nat) : (s.deviceEvent e node).guarding = s.guarding := by
  unfold State.deviceEvent; repeat' split
  all_goals simp

/-! R301: `State.eachDevice`. -/

@[simp] theorem State.eachDevice_regs (e : DeviceEvent) (l : List Nat) : (s.eachDevice e l).regs = s.regs := by
  induction l generalizing s with
  | nil => rfl
  | cons k l ih => simp [State.eachDevice, ih]
@[simp] theorem State.eachDevice_sp (e : DeviceEvent) (l : List Nat) : (s.eachDevice e l).sp = s.sp := by
  induction l generalizing s with
  | nil => rfl
  | cons k l ih => simp [State.eachDevice, ih]
@[simp] theorem State.eachDevice_ex (e : DeviceEvent) (l : List Nat) : (s.eachDevice e l).ex = s.ex := by
  induction l generalizing s with
  | nil => rfl
  | cons k l ih => simp [State.eachDevice, ih]
@[simp] theorem State.eachDevice_ia (e : DeviceEvent) (l : List Nat) : (s.eachDevice e l).ia = s.ia := by
  induction l generalizing s with
  | nil => rfl
  | cons k l ih => simp [State.eachDevice, ih]
@[simp] theorem State.eachDevice_iq (e : DeviceEvent) (l : List Nat) : (s.eachDevice e l).iq = s.iq := by
  induction l generalizing s with
  | nil => rfl
  | cons k l ih => simp [State.eachDevice, ih]
@[simp] theorem State.eachDevice_iqEnable (e : DeviceEvent) (l : List Nat) : (s.eachDevice e l).iqEnable = s.iqEnable := by
  induction l generalizing s with
  | nil => rfl
  | cons k l ih => simp [State.eachDevice, ih]
@[simp] theorem State.eachDevice_skipping (e : DeviceEvent) (l : List Nat) : (s.eachDevice e l).skipping = s.skipping := by
  induction l generalizing s with
  | nil => rfl
  | cons k l ih => simp [State.eachDevice, ih]
@[simp] theorem State.eachDevice_halted (e : DeviceEvent) (l : List Nat) : (s.eachDevice e l).halted = s.halted := by
  induction l generalizing s with
  | nil => rfl
  | cons k l ih => simp [State.eachDevice, ih]
@[simp] theorem State.eachDevice_running (e : DeviceEvent) (l : List Nat) : (s.eachDevice e l).running = s.running := by
  induction l generalizing s with
  | nil => rfl
  | cons k l ih => simp [State.eachDevice, ih]
@[simp] theorem State.eachDevice_wait (e : DeviceEvent) (l : List Nat) : (s.eachDevice e l).wait = s.wait := by
  induction l generalizing s with
  | nil => rfl
  | cons k l ih => simp [State.eachDevice, ih]
@[simp] theorem State.eachDevice_leftover (e : DeviceEvent) (l : List Nat) : (s.eachDevice e l).leftover = s.leftover := by
  induction l generalizing s with
  | nil => rfl
  | cons k l ih => simp [State.eachDevice, ih]
@[simp] theorem State.eachDevice_config (e : DeviceEvent) (l : List Nat) : (s.eachDevice e l).config = s.config := by
  induction l generalizing s with
  | nil => rfl
  | cons k l ih => simp [State.eachDevice, ih]
@[simp] theorem State.eachDevice_guarding (e : DeviceEvent) (l : List Nat) : (s.eachDevice e l).guarding = s.guarding := by
  induction l generalizing s with
  | nil => rfl
  | cons k l ih => simp [State.eachDevice, ih]

/-! R301: `State.broadcast`. -/

@[simp] theorem State.broadcast_regs (e : DeviceEvent) : (s.broadcast e).regs = s.regs := by
  simp [State.broadcast]
@[simp] theorem State.broadcast_sp (e : DeviceEvent) : (s.broadcast e).sp = s.sp := by
  simp [State.broadcast]
@[simp] theorem State.broadcast_ex (e : DeviceEvent) : (s.broadcast e).ex = s.ex := by
  simp [State.broadcast]
@[simp] theorem State.broadcast_ia (e : DeviceEvent) : (s.broadcast e).ia = s.ia := by
  simp [State.broadcast]
@[simp] theorem State.broadcast_iq (e : DeviceEvent) : (s.broadcast e).iq = s.iq := by
  simp [State.broadcast]
@[simp] theorem State.broadcast_iqEnable (e : DeviceEvent) : (s.broadcast e).iqEnable = s.iqEnable := by
  simp [State.broadcast]
@[simp] theorem State.broadcast_skipping (e : DeviceEvent) : (s.broadcast e).skipping = s.skipping := by
  simp [State.broadcast]
@[simp] theorem State.broadcast_halted (e : DeviceEvent) : (s.broadcast e).halted = s.halted := by
  simp [State.broadcast]
@[simp] theorem State.broadcast_running (e : DeviceEvent) : (s.broadcast e).running = s.running := by
  simp [State.broadcast]
@[simp] theorem State.broadcast_wait (e : DeviceEvent) : (s.broadcast e).wait = s.wait := by
  simp [State.broadcast]
@[simp] theorem State.broadcast_leftover (e : DeviceEvent) : (s.broadcast e).leftover = s.leftover := by
  simp [State.broadcast]
@[simp] theorem State.broadcast_config (e : DeviceEvent) : (s.broadcast e).config = s.config := by
  simp [State.broadcast]
@[simp] theorem State.broadcast_guarding (e : DeviceEvent) : (s.broadcast e).guarding = s.guarding := by
  simp [State.broadcast]

/-! R315: `State.beginTransfer`. -/

@[simp] theorem State.beginTransfer_regs (node : Nat) (c : Storage) (kind : TransferKind) (sector : Nat) (base : Word) : (s.beginTransfer node c kind sector base).regs = s.regs := by
  unfold State.beginTransfer; dsimp only; split <;> simp
@[simp] theorem State.beginTransfer_pc (node : Nat) (c : Storage) (kind : TransferKind) (sector : Nat) (base : Word) : (s.beginTransfer node c kind sector base).pc = s.pc := by
  unfold State.beginTransfer; dsimp only; split <;> simp
@[simp] theorem State.beginTransfer_sp (node : Nat) (c : Storage) (kind : TransferKind) (sector : Nat) (base : Word) : (s.beginTransfer node c kind sector base).sp = s.sp := by
  unfold State.beginTransfer; dsimp only; split <;> simp
@[simp] theorem State.beginTransfer_ex (node : Nat) (c : Storage) (kind : TransferKind) (sector : Nat) (base : Word) : (s.beginTransfer node c kind sector base).ex = s.ex := by
  unfold State.beginTransfer; dsimp only; split <;> simp
@[simp] theorem State.beginTransfer_ia (node : Nat) (c : Storage) (kind : TransferKind) (sector : Nat) (base : Word) : (s.beginTransfer node c kind sector base).ia = s.ia := by
  unfold State.beginTransfer; dsimp only; split <;> simp
@[simp] theorem State.beginTransfer_iqEnable (node : Nat) (c : Storage) (kind : TransferKind) (sector : Nat) (base : Word) : (s.beginTransfer node c kind sector base).iqEnable = s.iqEnable := by
  unfold State.beginTransfer; dsimp only; split <;> simp
@[simp] theorem State.beginTransfer_skipping (node : Nat) (c : Storage) (kind : TransferKind) (sector : Nat) (base : Word) : (s.beginTransfer node c kind sector base).skipping = s.skipping := by
  unfold State.beginTransfer; dsimp only; split <;> simp
@[simp] theorem State.beginTransfer_halted (node : Nat) (c : Storage) (kind : TransferKind) (sector : Nat) (base : Word) : (s.beginTransfer node c kind sector base).halted = s.halted := by
  unfold State.beginTransfer; dsimp only; split <;> simp
@[simp] theorem State.beginTransfer_running (node : Nat) (c : Storage) (kind : TransferKind) (sector : Nat) (base : Word) : (s.beginTransfer node c kind sector base).running = s.running := by
  unfold State.beginTransfer; dsimp only; split <;> simp
@[simp] theorem State.beginTransfer_wait (node : Nat) (c : Storage) (kind : TransferKind) (sector : Nat) (base : Word) : (s.beginTransfer node c kind sector base).wait = s.wait := by
  unfold State.beginTransfer; dsimp only; split <;> simp
@[simp] theorem State.beginTransfer_leftover (node : Nat) (c : Storage) (kind : TransferKind) (sector : Nat) (base : Word) : (s.beginTransfer node c kind sector base).leftover = s.leftover := by
  unfold State.beginTransfer; dsimp only; split <;> simp
@[simp] theorem State.beginTransfer_mem (node : Nat) (c : Storage) (kind : TransferKind) (sector : Nat) (base : Word) : (s.beginTransfer node c kind sector base).mem = s.mem := by
  unfold State.beginTransfer; dsimp only; split <;> simp
@[simp] theorem State.beginTransfer_dirty (node : Nat) (c : Storage) (kind : TransferKind) (sector : Nat) (base : Word) : (s.beginTransfer node c kind sector base).dirty = s.dirty := by
  unfold State.beginTransfer; dsimp only; split <;> simp
@[simp] theorem State.beginTransfer_syncCount (node : Nat) (c : Storage) (kind : TransferKind) (sector : Nat) (base : Word) : (s.beginTransfer node c kind sector base).syncCount = s.syncCount := by
  unfold State.beginTransfer; dsimp only; split <;> simp
@[simp] theorem State.beginTransfer_subs (node : Nat) (c : Storage) (kind : TransferKind) (sector : Nat) (base : Word) : (s.beginTransfer node c kind sector base).subs = s.subs := by
  unfold State.beginTransfer; dsimp only; split <;> simp
@[simp] theorem State.beginTransfer_config (node : Nat) (c : Storage) (kind : TransferKind) (sector : Nat) (base : Word) : (s.beginTransfer node c kind sector base).config = s.config := by
  unfold State.beginTransfer; dsimp only; split <;> simp
@[simp] theorem State.beginTransfer_deviceDraws (node : Nat) (c : Storage) (kind : TransferKind) (sector : Nat) (base : Word) : (s.beginTransfer node c kind sector base).deviceDraws = s.deviceDraws := by
  unfold State.beginTransfer; dsimp only; split <;> simp
@[simp] theorem State.beginTransfer_guarding (node : Nat) (c : Storage) (kind : TransferKind) (sector : Nat) (base : Word) : (s.beginTransfer node c kind sector base).guarding = s.guarding := by
  unfold State.beginTransfer; dsimp only; split <;> simp

end Sys2Proof.Machine
end

