-- ==== Sys2Proof/Laws/Store.lean ====
section
/-! SUPPORT. The laws of the sparse tables: a read after a write, and every write keeps the canonical form. -/

namespace Sys2Proof.Machine

variable {α : Type} [DecidableEq α] {d : α}

@[simp] theorem Store.lookup_nil {β : Type} (e : β) (k : Nat) : Store.lookup e [] k = e := rfl

/-- A write leaves every other key alone. -/
theorem Store.lookup_update_ne (l : Store α) {k k' : Nat} (v : α) (h : k' ≠ k) :
    Store.lookup d (Store.update d l k v) k' = Store.lookup d l k' := by
  induction l with
  | nil => unfold Store.update; split <;> simp [Store.lookup, h.symm]
  | cons p t ih =>
    obtain ⟨a, x⟩ := p
    unfold Store.update
    have h' := Ne.symm h
    split_ifs with h1 h2 h3 h4
    · rfl
    · simp [Store.lookup, h']
    · subst h3; simp [Store.lookup, h']
    · subst h3; simp [Store.lookup, h']
    · simp only [Store.lookup, ih]

/-- A canonical table holds nothing below its first key. -/
theorem Store.lookup_of_wfFrom {bound lo : Nat} (l : Store α) (h : Store.wfFrom d bound lo l = true) {k : Nat}
    (hk : k < lo) : Store.lookup d l k = d := by
  induction l generalizing lo with
  | nil => rfl
  | cons p t ih =>
    obtain ⟨a, x⟩ := p
    simp only [Store.wfFrom, Bool.and_eq_true, decide_eq_true_eq] at h
    have hak : a ≠ k := by omega
    simp only [Store.lookup, hak, if_false]
    exact ih h.2 (by omega)

/-- A read after a write to the same key gives the value written. -/
theorem Store.lookup_update_self {bound lo : Nat} (l : Store α) (h : Store.wfFrom d bound lo l = true) (k : Nat) (v : α) :
    Store.lookup d (Store.update d l k v) k = v := by
  induction l generalizing lo with
  | nil => unfold Store.update; split <;> simp_all [Store.lookup]
  | cons p t ih =>
    obtain ⟨a, x⟩ := p
    simp only [Store.wfFrom, Bool.and_eq_true, decide_eq_true_eq] at h
    have htail : ∀ k', k' < a + 1 → Store.lookup d t k' = d := fun k' hk' => Store.lookup_of_wfFrom t h.2 hk'
    unfold Store.update
    split_ifs with h1 h2 h3 h4
    · rw [h2, Store.lookup, if_neg (by omega)]; exact htail k (by omega)
    · simp [Store.lookup]
    · rw [h4]; exact htail k (by omega)
    · simp [Store.lookup]
    · rw [Store.lookup, if_neg (by omega)]; exact ih h.2

/-- A write below the bound keeps the canonical form. -/
theorem Store.wfFrom_update {bound lo : Nat} (l : Store α) (h : Store.wfFrom d bound lo l = true) {k : Nat} (v : α)
    (hlo : lo ≤ k) (hk : k < bound) : Store.wfFrom d bound lo (Store.update d l k v) = true := by
  induction l generalizing lo with
  | nil => unfold Store.update; split <;> simp_all [Store.wfFrom]
  | cons p t ih =>
    obtain ⟨a, x⟩ := p
    have h' := h
    simp only [Store.wfFrom, Bool.and_eq_true, decide_eq_true_eq] at h'
    unfold Store.update
    split_ifs with h1 h2 h3 h4
    · exact h
    · simp_all [Store.wfFrom]
    · have := h'.2
      subst h3
      clear ih h h'
      cases t with
      | nil => rfl
      | cons q t =>
        obtain ⟨b, y⟩ := q
        simp only [Store.wfFrom, Bool.and_eq_true, decide_eq_true_eq] at this ⊢
        exact ⟨⟨⟨by omega, this.1.1.2⟩, this.1.2⟩, this.2⟩
    · simp_all [Store.wfFrom]
    · simp only [Store.wfFrom, Bool.and_eq_true, decide_eq_true_eq]
      exact ⟨h'.1, ih h'.2 (by omega)⟩

/-- The three laws for whole tables. -/
theorem Store.wf_update {bound : Nat} {l : Store α} (h : Store.wf d bound l = true) {k : Nat} (v : α) (hk : k < bound) :
    Store.wf d bound (Store.update d l k v) = true :=
  Store.wfFrom_update l h v (Nat.zero_le k) hk

theorem Store.lookup_update {bound : Nat} {l : Store α} (h : Store.wf d bound l = true) (k k' : Nat) (v : α) :
    Store.lookup d (Store.update d l k v) k' = if k' = k then v else Store.lookup d l k' := by
  split_ifs with hk
  · rw [hk]; exact Store.lookup_update_self l h k v
  · exact Store.lookup_update_ne l v hk

/-- Nothing is listed at or above the bound. -/
theorem Store.lookup_above {bound lo : Nat} (l : Store α) (h : Store.wfFrom d bound lo l = true) {k : Nat}
    (hk : bound ≤ k) : Store.lookup d l k = d := by
  induction l generalizing lo with
  | nil => rfl
  | cons p t ih =>
    obtain ⟨a, x⟩ := p
    simp only [Store.wfFrom, Bool.and_eq_true, decide_eq_true_eq] at h
    rw [Store.lookup, if_neg (by omega)]
    exact ih h.2

/-- Two canonical tables that read alike are equal lists. -/
theorem Store.ext_of_lookup {bound lo : Nat} (l m : Store α) (hl : Store.wfFrom d bound lo l = true)
    (hm : Store.wfFrom d bound lo m = true) (h : ∀ k, Store.lookup d l k = Store.lookup d m k) : l = m := by
  induction l generalizing lo m with
  | nil =>
    cases m with
    | nil => rfl
    | cons q t =>
      obtain ⟨b, y⟩ := q
      have := h b
      simp_all [Store.lookup, Store.wfFrom]
  | cons p t ih =>
    obtain ⟨a, x⟩ := p
    simp only [Store.wfFrom, Bool.and_eq_true, decide_eq_true_eq, Bool.not_eq_true', decide_eq_false_iff_not] at hl
    cases m with
    | nil => have := h a; simp_all [Store.lookup]
    | cons q t' =>
      obtain ⟨b, y⟩ := q
      simp only [Store.wfFrom, Bool.and_eq_true, decide_eq_true_eq, Bool.not_eq_true', decide_eq_false_iff_not] at hm
      have hab : a = b := by
        rcases Nat.lt_trichotomy a b with hlt | heq | hgt
        · have := h a
          rw [Store.lookup, if_pos rfl, Store.lookup, if_neg (by omega), Store.lookup_of_wfFrom t' hm.2 (by omega)] at this
          exact absurd this hl.1.2
        · exact heq
        · have := h b
          rw [Store.lookup, if_neg (by omega), Store.lookup, if_pos rfl, Store.lookup_of_wfFrom t hl.2 (by omega)] at this
          exact absurd this.symm hm.1.2
      subst hab
      have hxy : x = y := by have := h a; simpa [Store.lookup] using this
      subst hxy
      rw [ih t' hl.2 hm.2]
      intro k
      by_cases hk : a = k
      · subst hk
        rw [Store.lookup_of_wfFrom t hl.2 (by omega), Store.lookup_of_wfFrom t' hm.2 (by omega)]
      · have := h k
        simpa [Store.lookup, hk] using this

end Sys2Proof.Machine
end

