-- ==== Sys2Proof/Laws/Memory.lean ====
section
/-! SUPPORT. Registers, memory and dirty flags: what a read gives after a write, and every memory operation keeps the
canonical form. -/

namespace Sys2Proof.Machine

variable (s : State)

/-! ### Registers -/

@[simp] theorem Regs.get_set (g : Regs) (r q : Reg) (v : Word) : (g.set r v).get q = if q = r then v else g.get q := by
  cases r <;> cases q <;> rfl

theorem State.reg_eq (r : Reg) : s.reg r = s.regs.get r := rfl

@[simp] theorem State.reg_setReg (r q : Reg) (v : Word) : (s.setReg r v).reg q = if q = r then v else s.reg q :=
  Regs.get_set s.regs r q v

/-- Two register files that read alike are equal. -/
theorem Regs.ext_get {g g' : Regs} (h : ∀ r, g.get r = g'.get r) : g = g' := by
  cases g
  cases g'
  simp only [Regs.mk.injEq]
  exact ⟨h .a, h .b, h .c, h .x, h .y, h .z, h .i, h .j⟩

/-! ### Memory -/

theorem regionOf_lt (addr : Word) : regionOf addr < Config.regionCount := by
  have := addr.isLt
  unfold regionOf Config.regionCount
  omega

theorem toNat_lt_memoryWords (addr : Word) : addr.toNat < Config.memoryWords := addr.isLt

/-- A write leaves every other cell alone. -/
theorem State.read_write_ne {addr addr' : Word} (v : Word) (h : addr' ≠ addr) :
    (s.write addr v).read addr' = s.read addr' :=
  Store.lookup_update_ne s.mem v (fun e => h (BitVec.eq_of_toNat_eq e))

/-- R63's round trip, and every other cell as before. -/
theorem State.read_write (h : Memory.wf s.mem = true) (addr addr' v : Word) :
    (s.write addr v).read addr' = if addr' = addr then v else s.read addr' := by
  split_ifs with he
  · subst he; exact Store.lookup_update_self s.mem h _ v
  · exact s.read_write_ne v he

/-- Reading depends on memory alone. -/
theorem State.read_congr {s t : State} (h : s.mem = t.mem) (addr : Word) : s.read addr = t.read addr := by
  simp [State.read, h]

/-- A dirty flag depends on the dirty map alone. -/
theorem State.isDirty_congr {s t : State} (h : s.dirty = t.dirty) (r : Nat) : s.isDirty r = t.isDirty r := by
  simp [State.isDirty, h]

/-- Marking a region leaves every other flag alone. -/
theorem State.isDirty_markDirty_ne {r r' : Nat} (h : r' ≠ r) : (s.markDirty r).isDirty r' = s.isDirty r' :=
  Store.lookup_update_ne s.dirty true h

theorem State.isDirty_markDirty (h : Store.wf true Config.regionCount s.dirty = true) (r r' : Nat) :
    (s.markDirty r).isDirty r' = (decide (r' = r) || s.isDirty r') := by
  by_cases he : r' = r
  · subst he
    simpa [State.markDirty, State.isDirty] using Store.lookup_update_self s.dirty h r' true
  · simp [s.isDirty_markDirty_ne he, he]

/-- R63: a write sets its region's flag and no other. -/
theorem State.isDirty_write (h : Store.wf true Config.regionCount s.dirty = true) (addr v : Word) (r : Nat) :
    (s.write addr v).isDirty r = (decide (r = regionOf addr) || s.isDirty r) :=
  s.isDirty_markDirty h (regionOf addr) r

theorem State.isDirty_write_ne (addr v : Word) {r : Nat} (h : r ≠ regionOf addr) :
    (s.write addr v).isDirty r = s.isDirty r :=
  s.isDirty_markDirty_ne h

/-! ### The canonical forms -/

theorem State.tablesWf_iff : s.tablesWf = true ↔
    Memory.wf s.mem = true ∧ Store.wf true Config.regionCount s.dirty = true ∧
      Store.wf 0 Config.regionCount s.syncCount = true := by
  simp [State.tablesWf, and_assoc]

/-- The tables' form depends on the tables alone. -/
theorem State.tablesWf_congr {s t : State} (hm : t.mem = s.mem) (hd : t.dirty = s.dirty) (hc : t.syncCount = s.syncCount) :
    t.tablesWf = s.tablesWf := by
  simp [State.tablesWf, hm, hd, hc]

theorem State.reset_tablesWf : State.reset.tablesWf = true := by decide

theorem State.write_tablesWf (h : s.tablesWf = true) (addr v : Word) : (s.write addr v).tablesWf = true := by
  rw [State.tablesWf_iff] at h ⊢
  exact ⟨Store.wf_update h.1 v (toNat_lt_memoryWords addr), Store.wf_update h.2.1 true (regionOf_lt addr), h.2.2⟩

theorem State.markDirty_tablesWf (h : s.tablesWf = true) {r : Nat} (hr : r < Config.regionCount) :
    (s.markDirty r).tablesWf = true := by
  rw [State.tablesWf_iff] at h ⊢
  exact ⟨h.1, Store.wf_update h.2.1 true hr, h.2.2⟩

theorem State.clearDirty_tablesWf (h : s.tablesWf = true) (r : Nat) : (s.clearDirty r).tablesWf = true := by
  unfold State.clearDirty
  split
  · rw [State.tablesWf_iff] at h ⊢
    exact ⟨h.1, Store.wf_update h.2.1 false ‹_›, h.2.2⟩
  · exact h

theorem State.memoryReset_tablesWf (h : s.tablesWf = true) : s.memoryReset.tablesWf = true := by
  rw [State.tablesWf_iff] at h ⊢
  exact ⟨rfl, rfl, h.2.2⟩

theorem State.push_tablesWf (h : s.tablesWf = true) (v : Word) : (s.push v).tablesWf = true :=
  State.write_tablesWf _ (by rw [State.tablesWf_congr rfl rfl rfl]; exact h) _ v

theorem State.loadFrom_tablesWf (h : s.tablesWf = true) (base : Word) (ws : List Word) :
    (s.loadFrom base ws).tablesWf = true := by
  induction ws generalizing s base with
  | nil => exact h
  | cons w ws ih => exact ih _ (s.write_tablesWf h base w) _

theorem State.load_tablesWf (h : s.tablesWf = true) (base : Word) (ws : List Word) : (s.load base ws).tablesWf = true :=
  s.loadFrom_tablesWf h base _

theorem State.setCount_tablesWf (h : s.tablesWf = true) {r : Nat} (hr : r < Config.regionCount) (n : Nat) :
    { s with syncCount := Store.update 0 s.syncCount r n }.tablesWf = true := by
  rw [State.tablesWf_iff] at h ⊢
  exact ⟨h.1, h.2.1, Store.wf_update h.2.2 n hr⟩

/-- Placing a program keeps memory canonical. -/
theorem Memory.place_wf {m : Memory} (h : Memory.wf m = true) (addr : Word) (ws : List Word) :
    Memory.wf (Memory.place m addr ws) = true := by
  induction ws generalizing m addr with
  | nil => exact h
  | cons w ws ih => exact ih (Store.wf_update h w (toNat_lt_memoryWords addr)) _

end Sys2Proof.Machine
end

