-- ==== Sys2Proof/Laws/Sync.lean ====
section
/-! SUPPORT. The sync-subscription registry (spec/20_memory.md R68 to R72): what registering and unregistering do to the
counts, and that both keep R72. -/

namespace Sys2Proof.Machine

variable (s : State)

theorem Subscription.first_lt (u : Subscription) : u.first < Config.regionCount := regionOf_lt u.base

theorem Subscription.last_lt (u : Subscription) : u.last < Config.regionCount := by
  have : u.last ≤ 4095 := Nat.min_le_left _ _
  unfold Config.regionCount
  omega

theorem Subscription.first_le_last (u : Subscription) : u.first ≤ u.last := by
  have := u.first_lt
  unfold Config.regionCount at this
  unfold Subscription.last
  refine le_min (by omega) ?_
  unfold Subscription.first regionOf
  have : 1 ≤ max u.length 1 := Nat.le_max_right _ _
  omega

@[simp] theorem Subscription.mem_regions (u : Subscription) (r : Nat) : r ∈ u.regions ↔ u.covers r = true := by
  have := u.first_le_last
  simp only [Subscription.regions, List.mem_range'_1, Subscription.covers, Bool.and_eq_true, decide_eq_true_eq]
  omega

theorem Subscription.nodup_regions (u : Subscription) : u.regions.Nodup := List.nodup_range'

theorem Subscription.covers_lt {u : Subscription} {r : Nat} (h : u.covers r = true) : r < Config.regionCount := by
  have := u.last_lt
  simp only [Subscription.covers, Bool.and_eq_true, decide_eq_true_eq] at h
  omega

/-- The registered flag has no part in what a subscription covers. -/
@[simp] theorem Subscription.covers_registered (u : Subscription) (on : Bool) (r : Nat) :
    ({ u with registered := on } : Subscription).covers r = u.covers r := rfl

/-! ### Counting up and down -/

theorem State.syncOf_congr {s t : State} (h : s.syncCount = t.syncCount) (r : Nat) : s.syncOf r = t.syncOf r := by
  simp [State.syncOf, h]

theorem State.countUp_tablesWf (h : s.tablesWf = true) (rs : List Nat) (hr : ∀ r ∈ rs, r < Config.regionCount) :
    (s.countUp rs).tablesWf = true := by
  induction rs generalizing s with
  | nil => exact h
  | cons r rs ih =>
    have hr0 := hr r (by simp)
    exact ih _ (State.markDirty_tablesWf _ (s.setCount_tablesWf h hr0 _) hr0) (fun q hq => hr q (by simp [hq]))

theorem State.countDown_tablesWf (h : s.tablesWf = true) (rs : List Nat) (hr : ∀ r ∈ rs, r < Config.regionCount) :
    (s.countDown rs).tablesWf = true := by
  induction rs generalizing s with
  | nil => exact h
  | cons r rs ih =>
    exact ih _ (s.setCount_tablesWf h (hr r (by simp)) _) (fun q hq => hr q (by simp [hq]))

/-- R69: a region counts once more for each time it stands in the list. -/
theorem State.syncOf_countUp (h : s.tablesWf = true) (rs : List Nat) (hr : ∀ r ∈ rs, r < Config.regionCount) (q : Nat) :
    (s.countUp rs).syncOf q = s.syncOf q + rs.count q := by
  induction rs generalizing s with
  | nil => rfl
  | cons r rs ih =>
    have hr0 := hr r (by simp)
    have hw := (s.tablesWf_iff.mp h).2.2
    rw [State.countUp, ih _ (State.markDirty_tablesWf _ (s.setCount_tablesWf h hr0 _) hr0) (fun q hq => hr q (by simp [hq]))]
    by_cases hq : q = r
    · subst hq
      have : Store.lookup 0 (Store.update 0 s.syncCount q (s.syncOf q + 1)) q = s.syncOf q + 1 :=
        Store.lookup_update_self s.syncCount hw _ _
      simp only [State.syncOf, State.markDirty_syncCount, List.count_cons_self] at this ⊢
      omega
    · have : Store.lookup 0 (Store.update 0 s.syncCount r (s.syncOf r + 1)) q = Store.lookup 0 s.syncCount q :=
        Store.lookup_update_ne s.syncCount _ hq
      simp only [State.syncOf, State.markDirty_syncCount] at this ⊢
      rw [List.count_cons_of_ne (Ne.symm hq), this]

/-- R70: a region counts once less for each time it stands in the list, and never below 0. -/
theorem State.syncOf_countDown (h : s.tablesWf = true) (rs : List Nat) (hr : ∀ r ∈ rs, r < Config.regionCount) (q : Nat) :
    (s.countDown rs).syncOf q = s.syncOf q - rs.count q := by
  induction rs generalizing s with
  | nil => rfl
  | cons r rs ih =>
    have hr0 := hr r (by simp)
    have hw := (s.tablesWf_iff.mp h).2.2
    rw [State.countDown, ih _ (s.setCount_tablesWf h hr0 _) (fun q hq => hr q (by simp [hq]))]
    by_cases hq : q = r
    · subst hq
      have : Store.lookup 0 (Store.update 0 s.syncCount q (s.syncOf q - 1)) q = s.syncOf q - 1 :=
        Store.lookup_update_self s.syncCount hw _ _
      simp only [State.syncOf, List.count_cons_self] at this ⊢
      omega
    · have : Store.lookup 0 (Store.update 0 s.syncCount r (s.syncOf r - 1)) q = Store.lookup 0 s.syncCount q :=
        Store.lookup_update_ne s.syncCount _ hq
      simp only [State.syncOf] at this ⊢
      rw [List.count_cons_of_ne (Ne.symm hq), this]

/-- A covered region stands once among a subscription's regions, any other not at all. -/
theorem Subscription.count_regions (u : Subscription) (r : Nat) : u.regions.count r = if u.covers r then 1 else 0 := by
  rw [List.Nodup.count u.nodup_regions]
  simp

/-! ### Registering and unregistering -/

theorem State.register_tablesWf (h : s.tablesWf = true) (k : Nat) : (s.register k).tablesWf = true := by
  unfold State.register
  split
  · exact h
  · split
    · exact h
    · rw [State.tablesWf_congr (State.setRegistered_mem _ _ _ _) (State.setRegistered_dirty _ _ _ _)
        (State.setRegistered_syncCount _ _ _ _)]
      exact s.countUp_tablesWf h _ (fun r hr => Subscription.covers_lt ((Subscription.mem_regions _ r).mp hr))

theorem State.unregister_tablesWf (h : s.tablesWf = true) (k : Nat) : (s.unregister k).tablesWf = true := by
  unfold State.unregister
  split
  · exact h
  · split
    · rw [State.tablesWf_congr (State.setRegistered_mem _ _ _ _) (State.setRegistered_dirty _ _ _ _)
        (State.setRegistered_syncCount _ _ _ _)]
      exact s.countDown_tablesWf h _ (fun r hr => Subscription.covers_lt ((Subscription.mem_regions _ r).mp hr))
    · exact h

theorem State.unregisterOwned_tablesWf (h : s.tablesWf = true) (owner n : Nat) : (s.unregisterOwned owner n).tablesWf = true := by
  induction n with
  | zero => exact h
  | succ n ih =>
    simp only [State.unregisterOwned]
    split
    · split
      · exact State.unregister_tablesWf _ ih n
      · exact ih
    · exact ih

theorem State.releaseSubscriptions_tablesWf (h : s.tablesWf = true) (node : Nat) :
    (s.releaseSubscriptions node).tablesWf = true := s.unregisterOwned_tablesWf h node _

/-- Changing one record of a list changes how many satisfy a test by that record alone. -/
theorem length_filter_set {α : Type} (p : α → Bool) (l : List α) (k : Nat) (u v : α) (h : l[k]? = some u) :
    ((l.set k v).filter p).length + (if p u then 1 else 0) = (l.filter p).length + (if p v then 1 else 0) := by
  induction l generalizing k with
  | nil => simp at h
  | cons a t ih =>
    cases k with
    | zero =>
      simp only [List.getElem?_cons_zero, Option.some.injEq] at h
      subst h
      simp only [List.set_cons_zero, List.filter_cons]
      split_ifs <;> simp_all
    | succ k =>
      simp only [List.getElem?_cons_succ] at h
      have := ih k h
      simp only [List.set_cons_succ, List.filter_cons]
      by_cases hpa : p a = true
      · simp only [hpa, if_true, List.length_cons]; omega
      · simp only [hpa]; simpa using this

/-- R72 holds of every list of subscriptions and table of counts that the registry's operations leave. -/
theorem State.register_countsAgree (h : s.tablesWf = true) (hc : s.countsAgree) (k : Nat) : (s.register k).countsAgree := by
  unfold State.register
  split
  · exact hc
  · rename_i u hu
    split
    · exact hc
    · rename_i hreg
      intro r
      have hr : ∀ r ∈ u.regions, r < Config.regionCount := fun r hr => Subscription.covers_lt ((u.mem_regions r).mp hr)
      have hlen := length_filter_set (fun u : Subscription => u.registered && u.covers r) s.subs k u
        { u with registered := true } hu
      have hcr := hc r
      simp only [hreg, Bool.false_and, Bool.true_and, Subscription.covers_registered] at hlen
      rw [State.syncOf_congr (State.setRegistered_syncCount _ _ _ _), s.syncOf_countUp h _ hr r, u.count_regions]
      simp only [State.liveSubscriptions, State.setRegistered_subs, State.countUp_subs] at hcr ⊢
      simp at hlen ⊢
      omega

theorem State.unregister_countsAgree (h : s.tablesWf = true) (hc : s.countsAgree) (k : Nat) :
    (s.unregister k).countsAgree := by
  unfold State.unregister
  split
  · exact hc
  · rename_i u hu
    split
    · rename_i hreg
      intro r
      have hr : ∀ r ∈ u.regions, r < Config.regionCount := fun r hr => Subscription.covers_lt ((u.mem_regions r).mp hr)
      have hlen := length_filter_set (fun u : Subscription => u.registered && u.covers r) s.subs k u
        { u with registered := false } hu
      have hcr := hc r
      simp only [hreg, Bool.false_and, Bool.true_and] at hlen
      rw [State.syncOf_congr (State.setRegistered_syncCount _ _ _ _), s.syncOf_countDown h _ hr r, u.count_regions]
      simp only [State.liveSubscriptions, State.setRegistered_subs, State.countDown_subs] at hcr ⊢
      simp at hlen ⊢
      omega
    · exact hc

/-- R70: unregistering clears the registered flag of its own record, whatever it was, and of no other. -/
theorem State.unregister_subs (k j : Nat) :
    (s.unregister k).subs[j]? = s.subs[j]?.map (fun u => if j = k then { u with registered := false } else u) := by
  unfold State.unregister
  split
  · rename_i h
    by_cases hj : j = k
    · subst hj; simp [h]
    · simp [hj]
  · rename_i u h
    obtain ⟨hk, he⟩ := List.getElem?_eq_some_iff.mp h
    split
    · rw [State.setRegistered, List.getElem?_set]
      by_cases hj : j = k
      · subst hj; simp [hk, he]
      · simp [hj, Ne.symm hj]
    · rename_i hr
      have hu : ({ u with registered := false } : Subscription) = u := by cases u; simp_all
      by_cases hj : j = k
      · subst hj; simp [h, hu]
      · simp [hj]

/-- R40: of the first `n` records, the owner's become unregistered. -/
theorem State.unregisterOwned_subs (owner n k : Nat) : (s.unregisterOwned owner n).subs[k]? =
    s.subs[k]?.map (fun u => if u.owner = owner ∧ k < n then { u with registered := false } else u) := by
  induction n with
  | zero => simp [State.unregisterOwned]
  | succ n ih =>
    simp only [State.unregisterOwned]
    cases hs : s.subs[k]? with
    | none =>
      simp only [hs, Option.map_none] at ih ⊢
      split
      · split
        · rw [State.unregister_subs, ih]; rfl
        · exact ih
      · exact ih
    | some u =>
      simp only [hs, Option.map_some] at ih ⊢
      by_cases hk : n = k
      · subst hk
        simp only [lt_irrefl, and_false, if_false] at ih
        simp only [ih]
        split <;> simp_all [State.unregister_subs]
      · have e : k < n + 1 ↔ k < n := by omega
        simp only [e]
        rw [← ih]
        split
        · split
          · rw [State.unregister_subs]; simp [Ne.symm hk]
          · rfl
        · rfl

/-- R40, R301: a device's subscriptions become unregistered, and no other record changes. -/
theorem State.releaseSubscriptions_subs (node : Nat) :
    (s.releaseSubscriptions node).subs = s.subs.map (Subscription.afterReset [node]) := by
  apply List.ext_getElem?
  intro k
  rw [State.releaseSubscriptions, State.unregisterOwned_subs, List.getElem?_map]
  by_cases hk : k < s.subs.length
  · simp [hk, Subscription.afterReset]
  · simp only [not_lt] at hk; simp [List.getElem?_eq_none hk]

/-- A new record that is not registered changes no count. -/
theorem State.append_countsAgree (hc : s.countsAgree) {u : Subscription} (hu : u.registered = false) :
    { s with subs := s.subs ++ [u] }.countsAgree := by
  intro r
  have := hc r
  simpa [State.syncOf, State.liveSubscriptions, List.filter_append, hu] using this

end Sys2Proof.Machine
end

