-- ==== Sys2Proof/Laws/Inv.lean ====
section
/-! SUPPORT. Each operation keeps the invariant of Safety.lean. -/

namespace Sys2Proof.Machine

variable {s : State}

/-- The invariant depends on seven fields alone. -/
theorem State.Inv.congr (h : s.Inv) {t : State} (hm : t.mem = s.mem) (hd : t.dirty = s.dirty)
    (hc : t.syncCount = s.syncCount) (hq : t.iq = s.iq) (hs : t.subs = s.subs) (hv : t.devices = s.devices)
    (hf : t.config = s.config) : t.Inv where
  tables := (State.tablesWf_congr hm hd hc).trans h.tables
  queue := hq ▸ h.queue
  counts r := by
    have := h.counts r
    simpa only [State.liveSubscriptions, hs, State.syncOf_congr hc] using this
  devices := hv ▸ h.devices
  deviceCount := by
    have := h.deviceCount
    simpa only [State.deviceCount, State.deviceTable, hv] using this
  config := hf ▸ h.config

/-- What touches only memory and its dirty flags keeps the invariant if it keeps the tables. -/
theorem State.Inv.tables_only (h : s.Inv) {t : State} (ht : t.tablesWf = true) (hc : t.syncCount = s.syncCount)
    (hq : t.iq = s.iq) (hs : t.subs = s.subs) (hv : t.devices = s.devices) (hf : t.config = s.config) : t.Inv where
  tables := ht
  queue := hq ▸ h.queue
  counts r := by
    have := h.counts r
    simpa only [State.liveSubscriptions, hs, State.syncOf_congr hc] using this
  devices := hv ▸ h.devices
  deviceCount := by
    have := h.deviceCount
    simpa only [State.deviceCount, State.deviceTable, hv] using this
  config := hf ▸ h.config

theorem State.Inv.setReg (h : s.Inv) (r : Reg) (v : Word) : (s.setReg r v).Inv := h.congr rfl rfl rfl rfl rfl rfl rfl

theorem State.Inv.setPc (h : s.Inv) (v : Word) : { s with pc := v }.Inv := h.congr rfl rfl rfl rfl rfl rfl rfl

theorem State.Inv.addWait (h : s.Inv) (n : Nat) : (s.addWait n).Inv := h.congr rfl rfl rfl rfl rfl rfl rfl

theorem State.Inv.write (h : s.Inv) (addr v : Word) : (s.write addr v).Inv :=
  h.tables_only (s.write_tablesWf h.tables addr v) rfl rfl rfl rfl rfl

theorem State.Inv.push (h : s.Inv) (v : Word) : (s.push v).Inv :=
  h.tables_only (s.push_tablesWf h.tables v) rfl rfl rfl rfl rfl

theorem State.Inv.load (h : s.Inv) (base : Word) (ws : List Word) : (s.load base ws).Inv :=
  h.tables_only (s.load_tablesWf h.tables base ws) (by simp) (by simp) (by simp) (by simp) (by simp)

theorem State.Inv.clearDirty (h : s.Inv) (r : Nat) : (s.clearDirty r).Inv :=
  h.tables_only (s.clearDirty_tablesWf h.tables r) (by simp) (by simp) (by simp) (by simp) (by simp)

theorem State.Inv.raise (h : s.Inv) (m : Word) : (s.raise m).Inv := by
  unfold State.raise
  split
  · rename_i hq
    exact ⟨h.tables, by simpa using hq.2, h.counts, h.devices, h.deviceCount, h.config⟩
  · exact h

theorem State.Inv.enterHandler (h : s.Inv) (m : Word) : (s.enterHandler m).Inv := by
  have h1 : ({ s with iqEnable := false } : State).Inv := h.congr rfl rfl rfl rfl rfl rfl rfl
  exact ((h1.push s.pc).push (s.reg .a)).congr rfl rfl rfl rfl rfl rfl rfl

theorem State.Inv.deliver (h : s.Inv) : s.deliver.Inv := by
  unfold State.deliver
  split
  · exact h
  · rename_i m rest hq
    have hl := h.queue
    rw [hq, List.length_cons] at hl
    have h1 : ({ s with iq := rest } : State).Inv :=
      ⟨h.tables, Nat.le_of_succ_le hl, h.counts, h.devices, h.deviceCount, h.config⟩
    exact h1.enterHandler m

theorem State.Inv.attemptDelivery (h : s.Inv) : s.attemptDelivery.Inv := by
  unfold State.attemptDelivery
  split
  · exact h.deliver
  · exact h

theorem State.Inv.popAdjust (h : s.Inv) (o : Operand) : (s.popAdjust o).Inv :=
  h.congr (by simp) (by simp) (by simp) (by simp) (by simp) (by simp) (by simp)

theorem State.Inv.pushAdjust (h : s.Inv) (o : Operand) : (s.pushAdjust o).Inv :=
  h.congr (by simp) (by simp) (by simp) (by simp) (by simp) (by simp) (by simp)

theorem State.Inv.writeLoc (h : s.Inv) (l : Loc) (v : Word) : (s.writeLoc l v).Inv := by
  cases l with
  | mem addr => exact h.write addr v
  | reg _ => exact h.congr rfl rfl rfl rfl rfl rfl rfl
  | sp => exact h.congr rfl rfl rfl rfl rfl rfl rfl
  | pc => exact h.congr rfl rfl rfl rfl rfl rfl rfl
  | ex => exact h.congr rfl rfl rfl rfl rfl rfl rfl
  | lit _ => exact h

theorem State.Inv.setEx (h : s.Inv) (v : Word) : { s with ex := v }.Inv := h.congr rfl rfl rfl rfl rfl rfl rfl

theorem State.Inv.writeBack (h : s.Inv) (l : Loc) (out : AluOut) : (s.writeBack l out).Inv := by
  unfold State.writeBack
  cases s.config.exDestOrder <;> cases out.result <;> cases out.exNew
  · exact h
  · exact h.setEx _
  · exact h.writeLoc l _
  · exact (h.writeLoc l _).setEx _
  · exact h
  · exact h.setEx _
  · exact h.writeLoc l _
  · exact (h.setEx _).writeLoc l _

/-! ### Subscriptions -/

theorem State.Inv.register (h : s.Inv) (k : Nat) : (s.register k).Inv where
  tables := s.register_tablesWf h.tables k
  queue := by simpa using h.queue
  counts := s.register_countsAgree h.tables h.counts k
  devices := by simpa using h.devices
  deviceCount := by simpa [State.deviceCount, State.deviceTable] using h.deviceCount
  config := by simpa using h.config

theorem State.Inv.unregister (h : s.Inv) (k : Nat) : (s.unregister k).Inv where
  tables := s.unregister_tablesWf h.tables k
  queue := by simpa using h.queue
  counts := s.unregister_countsAgree h.tables h.counts k
  devices := by simpa using h.devices
  deviceCount := by simpa [State.deviceCount, State.deviceTable] using h.deviceCount
  config := by simpa using h.config

theorem State.Inv.registerSync (h : s.Inv) (owner : Nat) (base : Word) (length : Nat) :
    (s.registerSync owner base length).Inv := by
  refine State.Inv.register (s := { s with subs := s.subs ++ [_] }) ?_ s.subs.length
  exact ⟨h.tables, h.queue, s.append_countsAgree h.counts rfl, h.devices, h.deviceCount, h.config⟩

theorem State.Inv.unregisterOwned (h : s.Inv) (owner n : Nat) : (s.unregisterOwned owner n).Inv := by
  induction n with
  | zero => exact h
  | succ n ih =>
    simp only [State.unregisterOwned]
    split
    · split
      · exact ih.unregister n
      · exact ih
    · exact ih

/-! ### Devices -/

/-- Changing a device's kind leaves its place in the graph. -/
theorem upstreams_modify_kind (devices : List Device) (node k : Nat) (g : Device → DeviceKind) :
    (devices.modify node (fun d => { d with kind := g d }))[k]?.map Device.upstream =
      devices[k]?.map Device.upstream := by
  rw [List.getElem?_modify]
  by_cases hk : node = k
  · subst hk; cases devices[node]? <;> simp
  · simp [hk]

@[simp] theorem childrenOf_modify_kind (devices : List Device) (node : Nat) (g : Device → DeviceKind) (u : Upstream) :
    childrenOf (devices.modify node (fun d => { d with kind := g d })) u = childrenOf devices u := by
  simp only [childrenOf, List.length_modify, upstreams_modify_kind]

@[simp] theorem devicesWf_modify_kind (devices : List Device) (node : Nat) (g : Device → DeviceKind) :
    devicesWf (devices.modify node (fun d => { d with kind := g d })) = devicesWf devices := by
  simp only [devicesWf, List.length_modify, upstreams_modify_kind]

/-- What changes one device's kind alone keeps the invariant. -/
theorem State.Inv.modify_kind (h : s.Inv) (node : Nat) (g : Device → DeviceKind) :
    ({ s with devices := s.devices.modify node (fun d => { d with kind := g d }) } : State).Inv where
  tables := h.tables
  queue := h.queue
  counts := h.counts
  devices := by simpa using h.devices
  deviceCount := by simpa [State.deviceCount, State.deviceTable] using h.deviceCount
  config := h.config

theorem State.Inv.setKind (h : s.Inv) (node : Nat) (kind : DeviceKind) : (s.setKind node kind).Inv :=
  h.modify_kind node fun _ => kind

theorem State.Inv.internalOp (h : s.Inv) (node : Nat) (op : InternalOp) : (s.internalOp node op).Inv :=
  h.modify_kind node fun d => d.kind.act op

theorem State.Inv.internalOps (h : s.Inv) (node : Nat) (ops : List InternalOp) : (s.internalOps node ops).Inv := by
  induction ops generalizing s with
  | nil => exact h
  | cons op ops ih => exact ih (h.internalOp node op)

theorem State.Inv.deviceOp (h : s.Inv) (node : Nat) (op : DeviceOp) : (s.deviceOp node op).Inv := by
  cases op with
  | setReg r v => exact h.setReg r v
  | setPc v => exact h.setPc v
  | write addr v => exact h.write addr v
  | load base words => exact h.load base words
  | registerSync base length => exact h.registerSync node base length
  | register k => simp only [State.deviceOp]; split <;> [exact h.register k; exact h]
  | unregister k => simp only [State.deviceOp]; split <;> [exact h.unregister k; exact h]
  | clearDirty r => exact h.clearDirty r
  | raise m => exact h.raise m
  | addWait n => exact h.addWait n
  | internal op => exact h.internalOp node op

theorem State.Inv.deviceOps (h : s.Inv) (node : Nat) (ops : List DeviceOp) : (s.deviceOps node ops).Inv := by
  induction ops generalizing s with
  | nil => exact h
  | cons op ops ih => exact ih (h.deviceOp node op)

theorem State.Inv.draw (h : s.Inv) : ({ s with deviceDraws := s.deviceDraws + 1 } : State).Inv :=
  h.congr rfl rfl rfl rfl rfl rfl rfl

theorem State.Inv.respond (h : s.Inv) (e : DeviceEvent) (node : Nat) : (s.respond e node).Inv :=
  h.draw.internalOps node _

theorem State.Inv.loadRom (h : s.Inv) (image : List Word) : (s.loadRom image).Inv := (h.load 0 image).setPc 0

theorem State.Inv.deviceEvent (h : s.Inv) (e : DeviceEvent) (node : Nat) : (s.deviceEvent e node).Inv := by
  have hr : (s.releaseSubscriptions node).Inv := h.unregisterOwned node _
  unfold State.deviceEvent
  split
  · exact h
  · split
    · exact hr.loadRom _
    · exact hr.respond _ _
    · exact hr.respond _ _
  · split
    · exact h
    · exact h.respond _ _
    · exact h.respond _ _
  · split
    · exact h
    · exact h.respond _ _
    · exact h.respond _ _

theorem State.Inv.beginTransfer (h : s.Inv) (node : Nat) (c : Storage) (kind : TransferKind) (sector : Nat) (base : Word) :
    (s.beginTransfer node c kind sector base).Inv := by
  unfold State.beginTransfer; dsimp only
  split
  · exact (h.setKind node _).raise _
  · exact h.setKind node _

theorem State.Inv.transferCommand (h : s.Inv) {node : Nat} {c : Storage} {kind : TransferKind} {sector : Nat}
    {base : Word} {t : State} (ht : s.transferCommand node c kind sector base = some t) : t.Inv := by
  unfold State.transferCommand at ht
  split at ht
  · cases ht; exact h.setKind node _
  · split at ht
    · cases ht
    · cases ht; exact h.beginTransfer node c kind sector base

theorem State.Inv.broadcast (h : s.Inv) (e : DeviceEvent) : (s.broadcast e).Inv := by
  unfold State.broadcast
  generalize broadcastOrder s.devices = l
  induction l generalizing s with
  | nil => exact h
  | cons k l ih => exact ih (h.deviceEvent e k)

end Sys2Proof.Machine
end

