-- ==== Sys2Proof/Laws/Devices.lean ====
section
/-! SUPPORT. What a device can do to the machine in HWI and on a broadcast (spec/45_special_hardware.md R255), field by
field, beside the frames of Laws/Frame.lean. -/

namespace Sys2Proof.Machine

variable (s : State)

/-- R286: the queue after `Raise`. -/
theorem State.raise_iq (m : Word) :
    (s.raise m).iq = if s.ia ≠ 0 ∧ s.iq.length < Config.queueCapacity then s.iq ++ [m] else s.iq := by
  unfold State.raise; split <;> rfl

/-- R286: a message is added at the end or not at all. -/
theorem State.raise_iq_prefix (m : Word) : s.iq <+: (s.raise m).iq := by
  unfold State.raise; split
  · exact ⟨[m], rfl⟩
  · exact List.prefix_rfl

/-! ### One operation, and a list of them -/

/-- R255: a device adds messages to the queue; it removes none. -/
theorem State.deviceOp_iq_prefix (node : Nat) (op : DeviceOp) : s.iq <+: (s.deviceOp node op).iq := by
  cases op <;> simp only [State.deviceOp]
  case raise m => exact s.raise_iq_prefix m
  all_goals try split
  all_goals simp

theorem State.deviceOps_iq_prefix (node : Nat) (ops : List DeviceOp) : s.iq <+: (s.deviceOps node ops).iq := by
  induction ops generalizing s with
  | nil => exact List.prefix_rfl
  | cons op ops ih => exact (s.deviceOp_iq_prefix node op).trans (ih _)

/-- R255: a device adds to `wait`; it takes nothing off it. -/
theorem State.wait_le_deviceOp (node : Nat) (op : DeviceOp) : s.wait ≤ (s.deviceOp node op).wait := by
  cases op <;> simp only [State.deviceOp]
  all_goals try split
  all_goals simp

theorem State.wait_le_deviceOps (node : Nat) (ops : List DeviceOp) : s.wait ≤ (s.deviceOps node ops).wait := by
  induction ops generalizing s with
  | nil => exact le_rfl
  | cons op ops ih => exact (s.wait_le_deviceOp node op).trans (ih _)

/-- R255: a device changes no other device. -/
theorem State.deviceOp_others (node : Nat) (op : DeviceOp) {k : Nat} (hk : k ≠ node) :
    (s.deviceOp node op).devices[k]? = s.devices[k]? := by
  cases op <;> simp only [State.deviceOp]
  case internal op => simp [State.internalOp, Ne.symm hk]
  all_goals try split
  all_goals simp

theorem State.deviceOps_others (node : Nat) (ops : List DeviceOp) {k : Nat} (hk : k ≠ node) :
    (s.deviceOps node ops).devices[k]? = s.devices[k]? := by
  induction ops generalizing s with
  | nil => rfl
  | cons op ops ih => exact (ih _).trans (s.deviceOp_others node op hk)

/-! ### What a device is stays as it is -/

/-- R44: a change of a device's own state does not change what fixes its behaviour. -/
@[simp] theorem DeviceKind.act_fixed (kind : DeviceKind) (op : InternalOp) : (kind.act op).fixed = kind.fixed := by
  cases kind <;> cases op <;> rfl

/-- The fixed parts of all devices, under a change of one device's kind that keeps its fixed part. -/
theorem map_fixed_modify {devices : List Device} {node : Nat} {g : Device → DeviceKind}
    (h : ∀ d, devices[node]? = some d → (g d).fixed = d.kind.fixed) :
    (devices.modify node (fun d => { d with kind := g d })).map Device.fixed = devices.map Device.fixed := by
  apply List.ext_getElem?
  intro k
  rw [List.getElem?_map, List.getElem?_map, List.getElem?_modify]
  by_cases hk : node = k
  · subst hk
    cases hd : devices[node]? with
    | none => simp
    | some d => simp [Device.fixed, h d hd]
  · simp [hk]

@[simp] theorem State.internalOp_fixed (node : Nat) (op : InternalOp) :
    (s.internalOp node op).devices.map Device.fixed = s.devices.map Device.fixed :=
  map_fixed_modify (g := fun d => d.kind.act op) fun d _ => d.kind.act_fixed op

@[simp] theorem State.internalOps_fixed (node : Nat) (ops : List InternalOp) :
    (s.internalOps node ops).devices.map Device.fixed = s.devices.map Device.fixed := by
  induction ops generalizing s with
  | nil => rfl
  | cons op ops ih => exact (ih _).trans (s.internalOp_fixed node op)

@[simp] theorem State.deviceOp_fixed (node : Nat) (op : DeviceOp) :
    (s.deviceOp node op).devices.map Device.fixed = s.devices.map Device.fixed := by
  cases op <;> simp only [State.deviceOp]
  case internal op => exact s.internalOp_fixed node op
  all_goals try split
  all_goals simp

@[simp] theorem State.deviceOps_fixed (node : Nat) (ops : List DeviceOp) :
    (s.deviceOps node ops).devices.map Device.fixed = s.devices.map Device.fixed := by
  induction ops generalizing s with
  | nil => rfl
  | cons op ops ih => exact (ih _).trans (s.deviceOp_fixed node op)

/-- A storage controller's kind set anew, with the settings it had. -/
theorem State.setKind_storage_fixed {node : Nat} {d : Device} {c c' : Storage} (hd : s.devices[node]? = some d)
    (hk : d.kind = .storage c) (hc : c'.settings = c.settings) :
    (s.setKind node (.storage c')).devices.map Device.fixed = s.devices.map Device.fixed := by
  refine map_fixed_modify (g := fun _ => .storage c') fun d' hd' => ?_
  rw [hd] at hd'
  cases hd'
  rw [hk]
  exact congrArg FixedKind.storage hc

/-- R41: the children of a device are where its siblings' parents say, so the fixed parts decide them. -/
theorem childrenOf_congr {l m : List Device} (h : l.map Device.fixed = m.map Device.fixed) (u : Upstream) :
    childrenOf l u = childrenOf m u := by
  have hu : l.map Device.upstream = m.map Device.upstream := by
    have h1 := congrArg (List.map Prod.fst) h
    rw [List.map_map, List.map_map] at h1
    exact h1
  have hl : l.length = m.length := by simpa using congrArg List.length h
  have hk : ∀ k, l[k]?.map Device.upstream = m[k]?.map Device.upstream := fun k => by
    rw [← List.getElem?_map, ← List.getElem?_map, hu]
  simp only [childrenOf, hl, hk]

/-! ### A response -/

@[simp] theorem State.respond_deviceDraws (e : DeviceEvent) (node : Nat) :
    (s.respond e node).deviceDraws = s.deviceDraws + 1 := by simp [State.respond]

@[simp] theorem State.respond_fixed (e : DeviceEvent) (node : Nat) :
    (s.respond e node).devices.map Device.fixed = s.devices.map Device.fixed := by
  simp only [State.respond, State.internalOps_fixed]

@[simp] theorem State.deviceEvent_fixed (e : DeviceEvent) (node : Nat) :
    (s.deviceEvent e node).devices.map Device.fixed = s.devices.map Device.fixed := by
  unfold State.deviceEvent; repeat' split
  all_goals simp

@[simp] theorem State.eachDevice_fixed (e : DeviceEvent) (l : List Nat) :
    (s.eachDevice e l).devices.map Device.fixed = s.devices.map Device.fixed := by
  induction l generalizing s with
  | nil => rfl
  | cons k l ih => exact (ih _).trans (s.deviceEvent_fixed e k)

/-! ### HWQ and HWI -/

/-- R41: an entry of a child list is the index of a device. -/
theorem lt_of_mem_childrenOf {devices : List Device} {u : Upstream} {k : Nat} (h : k ∈ childrenOf devices u) :
    k < devices.length := by
  simp only [childrenOf, List.mem_filter, List.mem_range] at h; exact h.1

/-- R301: a broadcast reaches devices that are there. -/
theorem lt_of_mem_broadcastOrder {devices : List Device} {k : Nat} (h : k ∈ broadcastOrder devices) :
    k < devices.length := by
  have visit : ∀ fuel node k, k ∈ visitFrom devices fuel node → node < devices.length → k < devices.length := by
    intro fuel
    induction fuel with
    | zero => intro node k hk hn; simp only [visitFrom, List.mem_singleton] at hk; omega
    | succ fuel ih =>
      intro node k hk hn
      simp only [visitFrom, List.mem_cons, List.mem_flatMap] at hk
      obtain rfl | ⟨child, hc, hk⟩ := hk
      · exact hn
      · exact ih child k hk (lt_of_mem_childrenOf hc)
  obtain ⟨child, hc, hk⟩ := List.mem_flatMap.mp h
  exact visit _ _ _ hk (lt_of_mem_childrenOf hc)

theorem State.deviceAt_lt {index : Word} {k : Nat} (h : s.deviceAt index = some k) : k < s.devices.length :=
  lt_of_mem_childrenOf (List.mem_of_getElem? h)

/-- R254. -/
theorem State.deviceAt_eq_none {index : Word} (h : s.deviceCount ≤ index.toNat) : s.deviceAt index = none :=
  List.getElem?_eq_none h

@[simp] theorem State.queryDevice_config (index : Word) : (s.queryDevice index).config = s.config := by
  unfold State.queryDevice; split <;> rfl

/-- R315: an accepted command adds its acknowledgement to the queue, or nothing. -/
theorem State.beginTransfer_iq_prefix (node : Nat) (c : Storage) (kind : TransferKind) (sector : Nat) (base : Word) :
    s.iq <+: (s.beginTransfer node c kind sector base).iq := by
  unfold State.beginTransfer; dsimp only
  split
  · exact (s.setKind node _).raise_iq_prefix _
  · exact List.prefix_rfl

/-- R315: an accepted command changes its controller's transfer, and no other device. -/
theorem State.beginTransfer_devices (node : Nat) (c : Storage) (kind : TransferKind) (sector : Nat) (base : Word) :
    ∃ transfer, (s.beginTransfer node c kind sector base).devices =
      (s.setKind node (.storage { c with transfer })).devices := by
  unfold State.beginTransfer; dsimp only
  split <;> exact ⟨_, by simp; rfl⟩

/-- R310, R314, R315: everything the stated effect of a command can be: a ROM's image loaded, a missing medium reported, a
transfer begun and the acts after it, or nothing. -/
theorem State.obey_cases (node : Nat) (command : Option DeviceCommand) (after : List DeviceOp) :
    (∃ image, s.obey node command after = s.loadRom image) ∨
      (∃ (d : Device) (c : Storage), s.devices[node]? = some d ∧ d.kind = .storage c ∧
        ((∃ kind, s.obey node command after = s.setKind node (.storage (c.reportNoMedium kind))) ∨
          ∃ kind sector base,
            s.obey node command after = (s.beginTransfer node c kind sector base).deviceOps node after)) ∨
      s.obey node command after = s := by
  unfold State.obey
  split
  · exact .inl ⟨_, rfl⟩
  · rename_i c kind sector base hk
    cases hd : s.devices[node]? with
    | none => simp [hd] at hk
    | some d =>
      simp only [hd, Option.map_some, Option.some.injEq] at hk
      cases hm : c.medium <;> cases ht : c.transfer <;> simp only [State.transferCommand, hm, ht, Option.isNone_none,
        Option.isNone_some, Option.isSome_none, Option.isSome_some, if_true, if_false, Bool.false_eq_true]
      · exact .inr (.inl ⟨d, c, rfl, hk, .inl ⟨kind, rfl⟩⟩)
      · exact .inr (.inl ⟨d, c, rfl, hk, .inl ⟨kind, rfl⟩⟩)
      · exact .inr (.inl ⟨d, c, rfl, hk, .inr ⟨kind, sector, base, rfl⟩⟩)
      · exact .inr (.inr trivial)
  · exact .inr (.inr rfl)

/-- R315: what beginning a transfer leaves alone. -/
theorem State.beginTransfer_fixed {node : Nat} {d : Device} {c : Storage} (hd : s.devices[node]? = some d)
    (hk : d.kind = .storage c) (kind : TransferKind) (sector : Nat) (base : Word) :
    (s.beginTransfer node c kind sector base).devices.map Device.fixed = s.devices.map Device.fixed := by
  obtain ⟨transfer, hv⟩ := s.beginTransfer_devices node c kind sector base
  rw [hv]
  exact s.setKind_storage_fixed hd hk rfl

/-- What the stated effect of a command, and the acts after it, leave alone. -/
theorem State.obey_frame (node : Nat) (command : Option DeviceCommand) (after : List DeviceOp) :
    let t := s.obey node command after
    t.sp = s.sp ∧ t.ex = s.ex ∧ t.ia = s.ia ∧ t.iqEnable = s.iqEnable ∧ t.skipping = s.skipping ∧ t.halted = s.halted ∧
      t.running = s.running ∧ t.leftover = s.leftover ∧ t.config = s.config ∧ t.deviceDraws = s.deviceDraws ∧
      t.guarding = s.guarding ∧ s.iq <+: t.iq ∧ s.wait ≤ t.wait ∧
      t.devices.map Device.fixed = s.devices.map Device.fixed := by
  obtain ⟨image, h⟩ | ⟨d, c, hd, hk, ⟨kind, h⟩ | ⟨kind, sector, base, h⟩⟩ | h := s.obey_cases node command after
  · simp [h]
  · simp only [h]
    refine ⟨rfl, rfl, rfl, rfl, rfl, rfl, rfl, rfl, rfl, rfl, rfl, List.prefix_rfl, le_rfl, ?_⟩
    exact s.setKind_storage_fixed hd hk (by cases kind <;> rfl)
  · have hq := (s.beginTransfer_iq_prefix node c kind sector base).trans (State.deviceOps_iq_prefix _ node after)
    have hw := (s.beginTransfer node c kind sector base).wait_le_deviceOps node after
    rw [State.beginTransfer_wait] at hw
    simp only [h]
    refine ⟨?_, ?_, ?_, ?_, ?_, ?_, ?_, ?_, ?_, ?_, ?_, hq, hw, ?_⟩ <;> simp [s.beginTransfer_fixed hd hk]
  · simp [h]

/-- R255: what HWI leaves alone, whatever the device: the frame of `HwiRunsTheDevice` before the charge. -/
theorem State.runHandler_frame (node : Nat) (command : Option DeviceCommand) (before after : List DeviceOp) :
    let t := s.runHandler node command before after
    t.sp = s.sp ∧ t.ex = s.ex ∧ t.ia = s.ia ∧ t.iqEnable = s.iqEnable ∧ t.skipping = s.skipping ∧ t.halted = s.halted ∧
      t.running = s.running ∧ t.leftover = s.leftover ∧ t.config = s.config ∧ t.deviceDraws = s.deviceDraws + 1 ∧
      t.guarding = s.guarding ∧ s.iq <+: t.iq ∧ s.wait ≤ t.wait ∧
      t.devices.map Device.fixed = s.devices.map Device.fixed := by
  have hq := State.deviceOps_iq_prefix { s with deviceDraws := s.deviceDraws + 1 } node before
  have hw := State.wait_le_deviceOps { s with deviceDraws := s.deviceDraws + 1 } node before
  obtain ⟨h1, h2, h3, h4, h5, h6, h7, h8, h9, h10, h11, h12, h13, h14⟩ :=
    ({ s with deviceDraws := s.deviceDraws + 1 }.deviceOps node before).obey_frame node command after
  simp only [State.runHandler, h1, h2, h3, h4, h5, h6, h7, h8, h9, h10, h11, h14, hq.trans h12, hw.trans h13]
  simp

theorem State.Inv.obey {s : State} (hs : s.Inv) (node : Nat) (command : Option DeviceCommand) (after : List DeviceOp) :
    (s.obey node command after).Inv := by
  obtain ⟨image, h⟩ | ⟨d, c, -, -, ⟨kind, h⟩ | ⟨kind, sector, base, h⟩⟩ | h := s.obey_cases node command after
  · rw [h]; exact hs.loadRom image
  · rw [h]; exact hs.setKind node _
  · rw [h]; exact (hs.beginTransfer node c kind sector base).deviceOps node after
  · rw [h]; exact hs

theorem State.Inv.hardwareInterrupt {s : State} (hs : s.Inv) (node : Nat) : (s.hardwareInterrupt node).Inv :=
  (hs.draw.deviceOps node _).obey node _ _

/-- R44: beside its own messages and status, a device's acts leave a storage controller as it is, its medium and its
transfer among the rest. -/
theorem DeviceKind.act_storage (c : Storage) (op : InternalOp) :
    ∃ c', (DeviceKind.storage c).act op = .storage c' ∧ c'.settings = c.settings ∧ c'.medium = c.medium ∧
      c'.transfer = c.transfer := by
  cases op <;> exact ⟨_, rfl, rfl, rfl, rfl⟩

theorem State.storageAt_eq_some {node : Nat} {c : Storage} :
    s.storageAt node = some c ↔ s.devices[node]?.map Device.kind = some (.storage c) := by
  unfold State.storageAt
  cases s.devices[node]? with
  | none => simp
  | some d => cases d with | mk _ _ kind => cases kind <;> simp

/-- R44, R319: beside its own messages and status, a device's acts leave the storage controller it is as it is. -/
theorem State.deviceOp_storage {node : Nat} (op : DeviceOp) {c : Storage} (h : s.storageAt node = some c) :
    ∃ c', (s.deviceOp node op).storageAt node = some c' ∧ c'.settings = c.settings ∧ c'.medium = c.medium ∧
      c'.transfer = c.transfer := by
  rw [State.storageAt_eq_some] at h
  simp only [State.storageAt_eq_some]
  cases op <;> simp only [State.deviceOp]
  case internal op =>
    obtain ⟨c', e, r⟩ := DeviceKind.act_storage c op
    refine ⟨c', ?_, r⟩
    cases hd : s.devices[node]? with
    | none => simp [hd] at h
    | some d =>
      simp only [hd, Option.map_some, Option.some.injEq] at h
      simp [State.internalOp, hd, h, e]
  all_goals (refine ⟨c, ?_, rfl, rfl, rfl⟩; (try split) <;> simpa using h)

theorem State.deviceOps_storage {node : Nat} (ops : List DeviceOp) {c : Storage} (h : s.storageAt node = some c) :
    ∃ c', (s.deviceOps node ops).storageAt node = some c' ∧ c'.settings = c.settings ∧ c'.medium = c.medium ∧
      c'.transfer = c.transfer := by
  induction ops generalizing s c with
  | nil => exact ⟨c, h, rfl, rfl, rfl⟩
  | cons op ops ih =>
    obtain ⟨c1, h1, a, b, d⟩ := s.deviceOp_storage op h
    obtain ⟨c2, h2, a', b', d'⟩ := ih _ h1
    exact ⟨c2, h2, a'.trans a, b'.trans b, d'.trans d⟩

/-- The stated effect of a command, and the acts after it, change no other device. -/
theorem State.obey_others (node : Nat) (command : Option DeviceCommand) (after : List DeviceOp) {k : Nat}
    (hk : k ≠ node) : (s.obey node command after).devices[k]? = s.devices[k]? := by
  obtain ⟨image, h⟩ | ⟨d, c, -, -, ⟨kind, h⟩ | ⟨kind, sector, base, h⟩⟩ | h := s.obey_cases node command after
  · simp [h]
  · simp [h, State.setKind, Ne.symm hk]
  · obtain ⟨transfer, hv⟩ := s.beginTransfer_devices node c kind sector base
    rw [h, State.deviceOps_others _ _ _ hk, hv]
    simp [State.setKind, Ne.symm hk]
  · rw [h]

/-- A device's acts keep the three sparse tables in canonical form. -/
theorem State.deviceOp_tablesWf (hw : s.tablesWf = true) (node : Nat) (op : DeviceOp) :
    (s.deviceOp node op).tablesWf = true := by
  cases op with
  | write addr v => exact s.write_tablesWf hw addr v
  | load base words => exact s.load_tablesWf hw base words
  | clearDirty r => exact s.clearDirty_tablesWf hw r
  | registerSync base length =>
    exact State.register_tablesWf (s := { s with subs := s.subs ++ [_] }) hw s.subs.length
  | register k => simp only [State.deviceOp]; split <;> [exact s.register_tablesWf hw k; exact hw]
  | unregister k => simp only [State.deviceOp]; split <;> [exact s.unregister_tablesWf hw k; exact hw]
  | raise m => exact (State.tablesWf_congr (by simp [State.deviceOp]) (by simp [State.deviceOp])
      (by simp [State.deviceOp])).trans hw
  | setReg _ _ | setPc _ | addWait _ | internal _ => exact hw

theorem State.deviceOps_tablesWf (hw : s.tablesWf = true) (node : Nat) (ops : List DeviceOp) :
    (s.deviceOps node ops).tablesWf = true := by
  induction ops generalizing s with
  | nil => exact hw
  | cons op ops ih => exact ih _ (s.deviceOp_tablesWf hw node op)

/-- R253, R254: everything HWI's effect can be. -/
theorem State.interruptDevice_cases (index : Word) :
    (∃ k, s.deviceAt index = some k ∧ s.interruptDevice index = s.hardwareInterrupt k) ∨
      (s.deviceAt index = none ∧ s.interruptDevice index = s) := by
  cases h : s.deviceAt index with
  | none => exact .inr ⟨rfl, by simp [State.interruptDevice, h]⟩
  | some k => exact .inl ⟨k, rfl, by simp [State.interruptDevice, h]⟩

@[simp] theorem State.interruptDevice_config (index : Word) : (s.interruptDevice index).config = s.config := by
  obtain ⟨k, -, h⟩ | ⟨-, h⟩ := s.interruptDevice_cases index
  · rw [h]; exact (s.runHandler_frame k _ _ _).2.2.2.2.2.2.2.2.1
  · rw [h]

/-- R252, R254: everything HWQ's effect can be. -/
theorem State.queryDevice_cases (index : Word) :
    (∃ k d, s.deviceAt index = some k ∧ s.devices[k]? = some d ∧ s.queryDevice index = s.showIdentity d.identity) ∨
      (s.deviceAt index = none ∧ s.queryDevice index = s) := by
  cases h : s.deviceAt index with
  | none => exact .inr ⟨rfl, by simp [State.queryDevice, h]⟩
  | some k =>
    have hk := s.deviceAt_lt h
    exact .inl ⟨k, s.devices[k], rfl, by simp, by simp [State.queryDevice, h, State.identityOf, hk]⟩

end Sys2Proof.Machine
end

