-- ==== Sys2Proof/Laws/Template.lean ====
section
/-! SUPPORT. What the templates of spec/40_instruction_cycle.md R139, spec/43_conditional.md R210 and
spec/44_special_control.md R230 do, said once: the whole next state, or the one refusal. -/

namespace Sys2Proof.Machine

/-! ### Operands -/

@[simp] theorem State.popAdjust_sp (s : State) (o : Operand) : (s.popAdjust o).sp = spAfterPop o s.sp := by
  unfold State.popAdjust spAfterPop; split <;> rfl

@[simp] theorem State.pushAdjust_sp (s : State) (o : Operand) : (s.pushAdjust o).sp = spAfterPush o s.sp := by
  unfold State.pushAdjust spAfterPush; split <;> rfl

theorem State.popAdjust_eq (s : State) (o : Operand) : s.popAdjust o = { s with sp := spAfterPop o s.sp } := by
  unfold State.popAdjust spAfterPop; split <;> rfl

theorem State.pushAdjust_eq (s : State) (o : Operand) : s.pushAdjust o = { s with sp := spAfterPush o s.sp } := by
  unfold State.pushAdjust spAfterPush; split <;> rfl

/-! R125, R126: the value or the address each operand kind names. -/

@[simp] theorem State.valueA_reg (s : State) (r : Reg) : s.valueA (.reg r) = s.reg r := rfl
@[simp] theorem State.valueA_ind (s : State) (r : Reg) : s.valueA (.ind r) = s.read (s.reg r) := rfl
@[simp] theorem State.valueA_indOff (s : State) (r : Reg) (nw : Word) :
    s.valueA (.indOff r nw) = s.read (s.reg r + nw) := rfl
@[simp] theorem State.valueA_stack (s : State) : s.valueA .stack = s.read s.sp := rfl
@[simp] theorem State.valueA_peek (s : State) : s.valueA .peek = s.read s.sp := rfl
@[simp] theorem State.valueA_pick (s : State) (nw : Word) : s.valueA (.pick nw) = s.read (s.sp + nw) := rfl
@[simp] theorem State.valueA_sp (s : State) : s.valueA .sp = s.sp := rfl
@[simp] theorem State.valueA_pc (s : State) : s.valueA .pc = s.pc := rfl
@[simp] theorem State.valueA_ex (s : State) : s.valueA .ex = s.ex := rfl
@[simp] theorem State.valueA_abs (s : State) (nw : Word) : s.valueA (.abs nw) = s.read nw := rfl
@[simp] theorem State.valueA_lit (s : State) (nw : Word) : s.valueA (.lit nw) = nw := rfl
@[simp] theorem State.valueA_small (s : State) (n : Int) : s.valueA (.small n) = trunc16 n := rfl

/-- R128: what stands at every place after a write to one of them. -/
theorem State.readLoc_writeLoc {s : State} (hm : Memory.wf s.mem = true) (l here : Loc) (v : Word)
    (hl : ∀ w, here ≠ .lit w) : (s.writeLoc l v).readLoc here = landed l (some v) here (s.readLoc here) := by
  cases here with
  | lit w => exact absurd rfl (hl w)
  | reg r =>
    cases l <;> first | rfl | skip
    simp only [State.writeLoc, State.readLoc, landed, State.reg_setReg, Loc.reg.injEq, Option.getD_some,
      eq_comm (b := r)]
  | mem addr =>
    cases l <;> first | rfl | skip
    simp only [State.writeLoc, State.readLoc, landed, State.read_write _ hm, Loc.mem.injEq, Option.getD_some,
      eq_comm (b := addr)]
  | sp => cases l <;> rfl
  | pc => cases l <;> rfl
  | ex => cases l <;> rfl

/-- R63, R128: which regions a write to a place makes dirty. -/
theorem State.isDirty_writeLoc {s : State} (hd : Store.wf true Config.regionCount s.dirty = true) (l : Loc) (v : Word)
    (r : Nat) : (s.writeLoc l v).isDirty r = true ↔ s.isDirty r = true ∨ ∃ addr, l = .mem addr ∧ regionOf addr = r := by
  cases l with
  | mem addr =>
    simp only [State.writeLoc, State.isDirty_write _ hd, Bool.or_eq_true, decide_eq_true_eq, Loc.mem.injEq,
      exists_eq_left']
    exact ⟨fun h => h.elim (fun h => .inr h.symm) .inl, fun h => h.elim .inr (fun h => .inl h.symm)⟩
  | reg _ | sp | pc | ex | lit _ => simp [State.writeLoc, State.isDirty, State.setReg]

/-- R12, R63: a push stores one word, in the cell below the old top. -/
theorem State.push_stores {s : State} (hw : s.tablesWf = true) (v : Word) :
    StoresOnly s (s.push v) (fun addr => if addr = s.sp - 1 then some v else none) := by
  obtain ⟨hm, hd, -⟩ := s.tablesWf_iff.1 hw
  have hdirty : ∀ r, (s.push v).isDirty r = (decide (r = regionOf (s.sp - 1)) || s.isDirty r) := fun r =>
    State.isDirty_write (s := { s with sp := s.sp - 1 }) hd (s.sp - 1) v r
  constructor
  · intro addr
    refine (State.read_write (s := { s with sp := s.sp - 1 }) hm (s.sp - 1) addr v).trans ?_
    split <;> simp_all [State.read]
  · intro r
    rw [hdirty, Bool.or_eq_true, decide_eq_true_eq]
    constructor
    · rintro (h | h)
      · exact .inr ⟨s.sp - 1, by simp, h.symm⟩
      · exact .inl h
    · rintro (h | ⟨addr, h1, h2⟩)
      · exact .inr h
      · split at h1 <;> simp_all

/-! ### Write-back -/

/-- R134: what stands at every place but EX after the result and the EX rule. -/
theorem State.readLoc_writeBack {s : State} (hm : Memory.wf s.mem = true) (l here : Loc) (out : AluOut)
    (hl : ∀ w, here ≠ .lit w) (hx : here ≠ .ex) :
    (s.writeBack l out).readLoc here = landed l out.result here (s.readLoc here) := by
  have hset : ∀ (t : State) (e : Word), State.readLoc { t with ex := e } here = t.readLoc here := by
    intro t e; cases here <;> first | rfl | exact absurd rfl hx
  have hnone : landed l none here (s.readLoc here) = s.readLoc here := by simp [landed]
  obtain ⟨result, exNew⟩ := out
  unfold State.writeBack
  cases s.config.exDestOrder <;> cases result <;> cases exNew <;>
    simp only [hset, hnone, State.readLoc_writeLoc hm _ _ _ hl]
  rename_i v e
  exact (State.readLoc_writeLoc (s := { s with ex := e }) hm _ _ _ hl).trans (by rw [hset])

/-- R134: EX after the result and the EX rule. -/
theorem State.writeBack_ex (s : State) (l : Loc) (out : AluOut) :
    (s.writeBack l out).ex = exAfter s.config.exDestOrder (if l = .ex then out.result else none) out.exNew s.ex := by
  obtain ⟨result, exNew⟩ := out
  unfold State.writeBack
  cases l <;> cases s.config.exDestOrder <;> cases result <;> cases exNew <;> rfl

/-- R63, R134: which regions the result makes dirty. -/
theorem State.isDirty_writeBack {s : State} (hd : Store.wf true Config.regionCount s.dirty = true) (l : Loc) (out : AluOut)
    (r : Nat) : (s.writeBack l out).isDirty r = true ↔
      s.isDirty r = true ∨ ∃ addr, l = .mem addr ∧ out.result.isSome = true ∧ regionOf addr = r := by
  obtain ⟨result, exNew⟩ := out
  have hset : ∀ (t : State) (e : Word), State.isDirty { t with ex := e } r = t.isDirty r := fun _ _ => rfl
  unfold State.writeBack
  cases s.config.exDestOrder <;> cases result <;> cases exNew <;>
    simp only [hset, State.isDirty_writeLoc hd, Option.isSome_none, Option.isSome_some, Bool.false_eq_true, false_and,
      true_and, and_false, exists_false, or_false]
  rename_i v e
  exact State.isDirty_writeLoc (s := { s with ex := e }) hd l v r

/-! ### The templates -/

/-- R139: the whole next state of a basic opcode without a further effect. -/
theorem runBasic_effect (op : Word → Word → AluOut) (cost : Nat) {b a : Operand} {s : State}
    (hb : bothStack b a = false) (hw : s.tablesWf = true) :
    ∃ t, runBasic op id cost b a s = .next t ∧
      BasicEffect s t b a (op (s.valueB b a) (s.valueA a)).result (op (s.valueB b a) (s.valueA a)).exNew s.skipping cost := by
  obtain ⟨hm, hd, -⟩ := s.tablesWf_iff.1 hw
  unfold runBasic
  rw [if_neg (by simp [hb])]
  refine ⟨_, rfl, ?_⟩
  generalize hout : op _ _ = out
  have ho : op (s.valueB b a) (s.valueA a) = out := hout
  rw [ho]
  have hread : ∀ here, (∀ w, here ≠ .lit w) → here ≠ .ex →
      State.readLoc (((s.popAdjust a).pushAdjust b).writeBack (s.target b a) out) here =
        landed (s.target b a) out.result here (((s.popAdjust a).pushAdjust b).readLoc here) :=
    fun here hl hx => State.readLoc_writeBack (by simpa using hm) _ _ _ hl hx
  constructor
  case regs => exact fun r => (hread (.reg r) (by simp) (by simp)).trans (by simp [State.readLoc, State.reg_eq])
  case sp => exact (hread .sp (by simp) (by simp)).trans (by simp [State.readLoc])
  case pc => exact (hread .pc (by simp) (by simp)).trans (by simp [State.readLoc])
  case mem => exact fun addr => (hread (.mem addr) (by simp) (by simp)).trans (by simp [State.readLoc, State.read])
  case ex => exact (State.writeBack_ex _ _ _).trans (by simp only [State.popAdjust_config, State.pushAdjust_config, State.popAdjust_ex, State.pushAdjust_ex]; rfl)
  case dirty =>
    exact fun r => (State.isDirty_writeBack (s := (s.popAdjust a).pushAdjust b) (by simpa using hd) _ _ r).trans
      (by simp [State.target, State.isDirty])
  case wait => simp [chargeBasic, State.extraCost, Nat.add_mul, Nat.add_assoc]
  all_goals simp [chargeBasic]

/-- R172, R173: a further effect that does not look at `wait` comes after everything else. -/
theorem runBasic_after {op : Word → Word → AluOut} {after : State → State} {cost : Nat} {b a : Operand} {s u : State}
    (hwait : ∀ (t : State) (n : Nat), after (t.addWait n) = (after t).addWait n)
    (hconfig : ∀ t : State, (after t).config = t.config) (h : runBasic op id cost b a s = .next u) :
    runBasic op after cost b a s = .next (after u) := by
  unfold runBasic at *
  split at h
  · cases h
  · rename_i hb
    rw [if_neg hb]
    injection h with h
    subst h
    simp only [chargeBasic, State.extraCost, id, hwait, hconfig]

theorem State.stepCursors_addWait (d : Word) (t : State) (n : Nat) :
    (t.addWait n).stepCursors d = (t.stepCursors d).addWait n := rfl

/-- R210: the whole next state of a conditional. -/
theorem runConditional_effect (cond : Word → Word → Bool) (cost : Nat) {b a : Operand} {s : State}
    (hb : bothStack b a = false) :
    ∃ t, runConditional cond cost b a s = .next t ∧
      BasicEffect s t b a none none (s.skipping || !cond (s.valueB b a) (s.valueA a)) cost := by
  unfold runConditional
  rw [if_neg (by simp [hb])]
  refine ⟨_, rfl, ?_⟩
  generalize hc : cond _ _ = c
  have ho : cond (s.valueB b a) (s.valueA a) = c := hc
  rw [ho]
  cases c <;> constructor <;>
    simp [chargeBasic, State.extraCost, landed, exAfter, Nat.add_mul, Nat.add_assoc, State.reg_eq, State.read,
      State.isDirty]

/-- R139: everything a basic instruction's next state can be. -/
theorem runBasic_next {op : Word → Word → AluOut} {after : State → State} {cost : Nat} {b a : Operand} {s t : State}
    (h : runBasic op after cost b a s = .next t) :
    bothStack b a = false ∧ t = chargeBasic cost b a
      (after (((s.popAdjust a).pushAdjust b).writeBack (s.target b a) (op (s.valueB b a) (s.valueA a)))) := by
  unfold runBasic at h
  split at h
  · cases h
  · rename_i hb; cases h; exact ⟨by simpa using hb, rfl⟩

/-- R210: everything a conditional's next state can be. -/
theorem runConditional_next {cond : Word → Word → Bool} {cost : Nat} {b a : Operand} {s t : State}
    (h : runConditional cond cost b a s = .next t) :
    bothStack b a = false ∧ ∃ u, t = chargeBasic cost b a u ∧
      (u = (s.popAdjust a).pushAdjust b ∨ u = { (s.popAdjust a).pushAdjust b with skipping := true }) := by
  unfold runConditional at h
  split at h
  · cases h
  · rename_i hb
    cases h
    refine ⟨by simpa using hb, _, rfl, ?_⟩
    split
    · exact .inl rfl
    · exact .inr rfl

/-- R139, R160: a basic instruction with both operands the stack slot is refused. -/
theorem runBasic_bothStack (op : Word → Word → AluOut) (after : State → State) (cost : Nat) {b a : Operand} (s : State)
    (h : bothStack b a = true) : runBasic op after cost b a s = .refused .bothStackOperands := by
  simp [runBasic, h]

/-- R210: a conditional with both operands the stack slot is refused. -/
theorem runConditional_bothStack (cond : Word → Word → Bool) (cost : Nat) {b a : Operand} (s : State)
    (h : bothStack b a = true) : runConditional cond cost b a s = .refused .bothStackOperands := by
  simp [runConditional, h]

/-- R230: a special instruction always answers a next state: its effect applied after operand a is resolved, then the
charge. No effect touches the parameters. -/
theorem runSpecial_eq (op : Word → State → State) (cost : Nat) (a : Operand) (s : State)
    (hop : ∀ v t, (op v t).config = t.config) :
    runSpecial op cost a s =
      .next ((op (s.valueA a) { s with sp := spAfterPop a s.sp }).addWait (cost + s.extraCost a)) := by
  simp only [runSpecial, chargeSpecial, State.extraCost, State.popAdjust_eq, hop]

/-- R136, R230: the whole next state of a special instruction that writes its operand. -/
theorem runSpecialWrite_effect (v : Word) (cost : Nat) (a : Operand) {s : State} (hw : s.tablesWf = true) :
    ∃ t, runSpecialWrite v cost a s = .next t ∧ WriteAEffect s t a v cost := by
  obtain ⟨hm, hd, -⟩ := s.tablesWf_iff.1 hw
  refine ⟨_, rfl, ?_⟩
  have hread : ∀ here, (∀ w, here ≠ .lit w) →
      ((s.popAdjust a).writeLoc (s.place a) v).readLoc here = landed (s.place a) (some v) here ((s.popAdjust a).readLoc here) :=
    fun here hl => State.readLoc_writeLoc (by simpa using hm) _ _ _ hl
  constructor
  case regs => exact fun r => (hread (.reg r) (by simp)).trans (by simp [State.readLoc, State.reg_eq])
  case sp => exact (hread .sp (by simp)).trans (by simp [State.readLoc])
  case pc => exact (hread .pc (by simp)).trans (by simp [State.readLoc])
  case ex => exact (hread .ex (by simp)).trans (by simp [State.readLoc])
  case stores =>
    constructor
    · intro addr
      refine (hread (.mem addr) (by simp)).trans ?_
      simp only [landed, State.readLoc, State.read, State.popAdjust_mem]
      split <;> rfl
    · intro r
      refine (State.isDirty_writeLoc (s := s.popAdjust a) (by simpa using hd) _ v r).trans ?_
      simp only [State.isDirty, State.popAdjust_dirty]
      refine or_congr_right (exists_congr fun addr => and_congr_left fun _ => ?_)
      split <;> simp_all
  case rest =>
    rw [State.popAdjust_eq]
    cases s.place a <;>
      simp [State.writeLoc, chargeSpecial, State.addWait, State.setReg, State.write, waitAfter, State.extraCost,
        Nat.add_assoc]

end Sys2Proof.Machine
end

