-- ==== Sys2Proof/Laws/Cycle.lean ====
section
/-! SUPPORT. What one iteration can do, said once (spec/70_reset_and_hazards.md R352), and what a run of iterations inherits
from each. -/

namespace Sys2Proof.Machine

/-- The state an executed instruction's iteration leaves is the instruction's own. -/
@[simp] theorem Result.goOn_state (r : Result) : r.goOn.state = r := by cases r <;> rfl

/-- R352, as one conditional: the four ways an iteration goes. -/
theorem step_eq (s : State) : step s =
    if s.running = false then .next s
    else if 0 < s.wait then .next { s with wait := s.wait - 1 }
    else if s.attemptDelivery.halted = true then .next s.attemptDelivery
    else executeOne s.attemptDelivery := by
  unfold step iteration
  cases s.running <;> simp only [Bool.not_true, Bool.not_false, Bool.true_eq_false, if_true, if_false, Bool.false_eq_true]
  · rfl
  · split
    · rfl
    · split
      · rfl
      · exact Result.goOn_state _

/-- R290, R354: with nothing to deliver the attempt does nothing. -/
theorem State.attemptDelivery_of_not {s : State} (h : s.deliverable = false) : s.attemptDelivery = s := by
  simp [State.attemptDelivery, h]

/-- R354: with something to deliver the attempt delivers it. -/
theorem State.attemptDelivery_of {s : State} (h : s.deliverable = true) : s.attemptDelivery = s.deliver := by
  simp [State.attemptDelivery, h]

/-- R222, R296: nothing is delivered inside a unit, where the parameter counts units. -/
theorem State.insideUnit_iff (s : State) :
    s.insideUnit = true ↔ s.config.interruptUnit = .wholeUnit ∧ s.guarding = true := by
  simp [State.insideUnit]

/-- R290. -/
theorem State.deliverable_iff (s : State) : s.deliverable = true ↔
    s.iqEnable = true ∧ s.skipping = false ∧ s.iq ≠ [] ∧
      ¬ (s.config.interruptUnit = .wholeUnit ∧ s.guarding = true) := by
  rw [← s.insideUnit_iff]
  cases hq : s.iq <;> simp [State.deliverable, hq, and_assoc]

/-- R352: an executing iteration that delivers nothing. -/
theorem step_executes {s : State} (hr : s.running = true) (hw : s.wait = 0) (hd : s.deliverable = false)
    (hh : s.halted = false) : step s = executeOne s := by
  rw [step_eq, State.attemptDelivery_of_not hd, hh, hr, hw]; simp

/-- R124: the instruction itself, unless it is passed over. -/
theorem executeOne_exec {s : State} (h : s.skipping = false ∨ s.fetched.isConditional = true) :
    executeOne s = exec s.fetched s.afterFetch := by
  unfold executeOne; rcases h with h | h <;> simp [h]

/-- R124: passed over. -/
theorem executeOne_skip {s : State} (h1 : s.skipping = true) (h2 : s.fetched.isConditional = false) :
    executeOne s = .next { s.afterFetch with skipping := false } := by
  unfold executeOne; simp [h1, h2]

/-- R352: everything an iteration that executes can answer. -/
theorem executeOne_cases (s : State) :
    (s.skipping = true ∧ s.fetched.isConditional = false ∧ executeOne s = .next { s.afterFetch with skipping := false }) ∨
      executeOne s = exec s.fetched s.afterFetch := by
  by_cases h : s.skipping = false ∨ s.fetched.isConditional = true
  · exact .inr (executeOne_exec h)
  · simp only [not_or, Bool.not_eq_false, Bool.not_eq_true] at h
    exact .inl ⟨h.1, h.2, executeOne_skip h.1 h.2⟩

/-- R355: an iteration that exits leaves the state as it is, and so does every later step. -/
theorem iteration_exit {s t : State} (h : iteration s = .next (.exit, t)) : t = s ∧ step s = .next s := by
  have halted : s.attemptDelivery.halted = true → s.attemptDelivery = s := fun hh => by
    by_cases hd : s.deliverable = true
    · rw [State.attemptDelivery_of hd] at hh
      unfold State.deliver at hh
      split at hh
      · rename_i hq; exact absurd hq (s.deliverable_iff.mp hd).2.2.1
      · simp [State.enterHandler] at hh
    · exact State.attemptDelivery_of_not (by simpa using hd)
  have ht : t = s := by
    unfold iteration at h
    split at h
    · cases h; rfl
    · split at h
      · cases h
      · split at h
        · rename_i hh; cases h; exact halted hh
        · unfold Result.goOn at h; split at h <;> cases h
  subst ht
  exact ⟨rfl, by simp [step, h, Iterated.state]⟩

/-- R351: what every step keeps, every run of iterations keeps. -/
theorem iterations_keep {P : State → Prop} (hstep : ∀ s t, P s → step s = .next t → P t) (k : Nat) {s t : State}
    (hs : P s) (h : iterations k s = .next t) : P t := by
  induction k generalizing s with
  | zero => cases h; exact hs
  | succ k ih =>
    unfold iterations at h
    split at h
    · rename_i u hu; exact ih (hstep s u hs (by simp [step, hu, Iterated.state])) h
    · rename_i u hu; cases h; exact hstep s _ hs (by simp [step, hu, Iterated.state])
    · cases h
    · cases h

end Sys2Proof.Machine
end

