-- ==== Sys2Proof/Laws/Encoding.lean ====
section
/-! SUPPORT. The small lemmas of decoding and encoding (spec/30_encoding.md R90 to R95): the fields of a word put together
from fields, and an operand's selector read back. -/

namespace Sys2Proof

/-! ### Fields -/

theorem opcodeField_append (hi : BitVec 6) (mid lo : BitVec 5) : opcodeField (hi ++ mid ++ lo) = lo := by
  show (hi ++ mid ++ lo : BitVec (6 + 5 + 5)).extractLsb' 0 5 = lo
  apply BitVec.eq_of_getLsbD_eq
  intro k hk
  rw [BitVec.getLsbD_extractLsb', BitVec.getLsbD_append]
  simp [hk]

theorem bField_append (hi : BitVec 6) (mid lo : BitVec 5) : bField (hi ++ mid ++ lo) = mid := by
  show (hi ++ mid ++ lo : BitVec (6 + 5 + 5)).extractLsb' 5 5 = mid
  apply BitVec.eq_of_getLsbD_eq
  intro k hk
  rw [BitVec.getLsbD_extractLsb', BitVec.getLsbD_append, BitVec.getLsbD_append]
  simp [hk]

theorem aField_append (hi : BitVec 6) (mid lo : BitVec 5) : aField (hi ++ mid ++ lo) = hi := by
  show (hi ++ mid ++ lo : BitVec (6 + 5 + 5)).extractLsb' 10 6 = hi
  apply BitVec.eq_of_getLsbD_eq
  intro k hk
  have h1 : ¬ 10 + k < 5 := by omega
  have h2 : ¬ 10 + k - 5 < 5 := by omega
  have h3 : 10 + k - 5 - 5 = k := by omega
  rw [BitVec.getLsbD_extractLsb', BitVec.getLsbD_append, BitVec.getLsbD_append]
  simp [hk, h1, h2, h3]

/-! ### Selectors -/

/-- R93 to R95: an operand's selector takes an extra word exactly when the operand has one. -/
theorem takesExtra_selector {o : Operand} (h : o.wfA = true) : takesExtra o.selector = !o.extra.isEmpty := by
  cases o with
  | small n =>
    simp only [Operand.wfA, smallInRange, Bool.and_eq_true, decide_eq_true_eq] at h
    obtain ⟨h1, h2⟩ := h
    interval_cases n <;> rfl
  | reg r | ind r | indOff r _ => cases r <;> rfl
  | stack | peek | pick _ | sp | pc | ex | abs _ | lit _ => rfl

/-- R93, R95: an operand's selector and extra word decode to the operand; `d` stands where there is no extra word. -/
theorem decodeOperand_selector {o : Operand} (h : o.wfA = true) (d : Word) :
    decodeOperand o.selector (o.extra.headD d) = o := by
  cases o with
  | small n =>
    simp only [Operand.wfA, smallInRange, Bool.and_eq_true, decide_eq_true_eq] at h
    obtain ⟨h1, h2⟩ := h
    interval_cases n <;> rfl
  | reg r | ind r => cases r <;> rfl
  | indOff r _ => cases r <;> simp only [Operand.selector, Operand.extra, List.headD_cons, Reg.index] <;> rfl
  | stack | peek | sp | pc | ex => rfl
  | pick _ | abs _ | lit _ => simp only [Operand.selector, Operand.extra, List.headD_cons]; rfl

/-- R95: operand b's selector fits its five bits. -/
theorem bSelector_selector {o : Operand} (h : o.wfB = true) : bSelector (o.selector.setWidth 5) = o.selector := by
  cases o with
  | small _ => cases h
  | reg r | ind r => cases r <;> rfl
  | indOff r _ => cases r <;> simp only [Operand.selector, Reg.index] <;> rfl
  | stack | peek | sp | pc | ex => rfl
  | pick _ | abs _ | lit _ => simp only [Operand.selector]; rfl

/-- R95: operand b's kinds are operand a's but the packed literals. -/
theorem Operand.wfA_of_wfB {o : Operand} (h : o.wfB = true) : o.wfA = true := by
  cases o <;> first | rfl | cases h

/-- R94: at most one extra word. -/
theorem Operand.extra_length_le (o : Operand) : o.extra.length ≤ 1 := by
  cases o <;> simp [Operand.extra]

/-- R92: one to three words. -/
theorem lengthOfWord_le (w : Word) : lengthOfWord w ≤ 3 := by
  unfold lengthOfWord; split <;> split <;> omega

theorem one_le_lengthOfWord (w : Word) : 1 ≤ lengthOfWord w := by unfold lengthOfWord; omega

/-! ### The special opcodes' numbers -/

/-- Exchanging two numbers twice changes nothing. -/
@[simp] theorem swapNumbers_swapNumbers (x y f : BitVec 5) : swapNumbers x y (swapNumbers x y f) = f := by
  unfold swapNumbers; split_ifs <;> simp_all

/-- R97: each number has one row, and each row one number, whatever the parameters are. -/
@[simp] theorem SpecialNumbers.rowOf_numberOf (n : SpecialNumbers) (row : BitVec 5) : n.rowOf (n.numberOf row) = row := by
  simp [SpecialNumbers.rowOf, SpecialNumbers.numberOf]

@[simp] theorem SpecialNumbers.numberOf_rowOf (n : SpecialNumbers) (number : BitVec 5) :
    n.numberOf (n.rowOf number) = number := by
  simp [SpecialNumbers.rowOf, SpecialNumbers.numberOf]

/-- R97: at the defaults a number is its row. -/
@[simp] theorem SpecialNumbers.rowOf_default (number : BitVec 5) : SpecialNumbers.default.rowOf number = number := by
  have h : ∀ f : BitVec 5, SpecialNumbers.default.rowOf f = f := by decide
  exact h number

end Sys2Proof
end

