-- ==== Sys2Proof/Laws/PerInstr.lean ====
section
/-! SUPPORT. A property of every instruction as syntax, one lemma per constructor of `Instr` (spec/30_encoding.md R92, R94,
R104): how long its encoding is. -/

namespace Sys2Proof.Laws.EncodedLength

/-- R92, R94: an instruction's words are its word and one for each operand that has an extra word; a basic instruction has
at most three, a special one at most two. -/
def Statement (i : Instr) : Prop :=
  (∀ numbers, (encode numbers i).length = i.wordCount) ∧
    match i.operands with
    | .basic b a => i.wordCount = 1 + (a.extra.length + b.extra.length) ∧ i.wordCount ≤ 3
    | .special a => i.wordCount = 1 + a.extra.length ∧ i.wordCount ≤ 2

theorem of_basic {i : Instr} {b a : Operand} (ho : i.operands = .basic b a) (he : i.extraWords = a.extra ++ b.extra) :
    Statement i := by
  have ha := a.extra_length_le
  have hb := b.extra_length_le
  simp only [Statement, ho, encode, Instr.wordCount, he, List.length_cons, List.length_append]
  exact ⟨fun _ => by omega, trivial, by omega⟩

theorem of_special {i : Instr} {a : Operand} (ho : i.operands = .special a) (he : i.extraWords = a.extra) :
    Statement i := by
  have ha := a.extra_length_le
  simp only [Statement, ho, encode, Instr.wordCount, he, List.length_cons]
  exact ⟨fun _ => by omega, trivial, by omega⟩

theorem set (b a : Operand) : Statement (.set b a) := of_basic rfl rfl
theorem add (b a : Operand) : Statement (.add b a) := of_basic rfl rfl
theorem sub (b a : Operand) : Statement (.sub b a) := of_basic rfl rfl
theorem mul (b a : Operand) : Statement (.mul b a) := of_basic rfl rfl
theorem mli (b a : Operand) : Statement (.mli b a) := of_basic rfl rfl
theorem div (b a : Operand) : Statement (.div b a) := of_basic rfl rfl
theorem dvi (b a : Operand) : Statement (.dvi b a) := of_basic rfl rfl
theorem mod (b a : Operand) : Statement (.mod b a) := of_basic rfl rfl
theorem mdi (b a : Operand) : Statement (.mdi b a) := of_basic rfl rfl
theorem and (b a : Operand) : Statement (.and b a) := of_basic rfl rfl
theorem bor (b a : Operand) : Statement (.bor b a) := of_basic rfl rfl
theorem xor (b a : Operand) : Statement (.xor b a) := of_basic rfl rfl
theorem shr (b a : Operand) : Statement (.shr b a) := of_basic rfl rfl
theorem asr (b a : Operand) : Statement (.asr b a) := of_basic rfl rfl
theorem shl (b a : Operand) : Statement (.shl b a) := of_basic rfl rfl
theorem ifb (b a : Operand) : Statement (.ifb b a) := of_basic rfl rfl
theorem ifc (b a : Operand) : Statement (.ifc b a) := of_basic rfl rfl
theorem ife (b a : Operand) : Statement (.ife b a) := of_basic rfl rfl
theorem ifn (b a : Operand) : Statement (.ifn b a) := of_basic rfl rfl
theorem ifg (b a : Operand) : Statement (.ifg b a) := of_basic rfl rfl
theorem ifa (b a : Operand) : Statement (.ifa b a) := of_basic rfl rfl
theorem ifl (b a : Operand) : Statement (.ifl b a) := of_basic rfl rfl
theorem ifu (b a : Operand) : Statement (.ifu b a) := of_basic rfl rfl
theorem adx (b a : Operand) : Statement (.adx b a) := of_basic rfl rfl
theorem sbx (b a : Operand) : Statement (.sbx b a) := of_basic rfl rfl
theorem sti (b a : Operand) : Statement (.sti b a) := of_basic rfl rfl
theorem std (b a : Operand) : Statement (.std b a) := of_basic rfl rfl
theorem jsr (a : Operand) : Statement (.jsr a) := of_special rfl rfl
theorem int (a : Operand) : Statement (.int a) := of_special rfl rfl
theorem iag (a : Operand) : Statement (.iag a) := of_special rfl rfl
theorem ias (a : Operand) : Statement (.ias a) := of_special rfl rfl
theorem rfi (a : Operand) : Statement (.rfi a) := of_special rfl rfl
theorem iaq (a : Operand) : Statement (.iaq a) := of_special rfl rfl
theorem hwn (a : Operand) : Statement (.hwn a) := of_special rfl rfl
theorem hwq (a : Operand) : Statement (.hwq a) := of_special rfl rfl
theorem hwi (a : Operand) : Statement (.hwi a) := of_special rfl rfl
theorem log (a : Operand) : Statement (.log a) := of_special rfl rfl
theorem brk (a : Operand) : Statement (.brk a) := of_special rfl rfl
theorem hlt (a : Operand) : Statement (.hlt a) := of_special rfl rfl
theorem invalidBasic18 (b a : Operand) : Statement (.invalidBasic18 b a) := of_basic rfl rfl
theorem invalidBasic19 (b a : Operand) : Statement (.invalidBasic19 b a) := of_basic rfl rfl
theorem invalidBasic1C (b a : Operand) : Statement (.invalidBasic1C b a) := of_basic rfl rfl
theorem invalidBasic1D (b a : Operand) : Statement (.invalidBasic1D b a) := of_basic rfl rfl
theorem invalidSpecial00 (a : Operand) : Statement (.invalidSpecial00 a) := of_special rfl rfl
theorem invalidSpecial02 (a : Operand) : Statement (.invalidSpecial02 a) := of_special rfl rfl
theorem invalidSpecial03 (a : Operand) : Statement (.invalidSpecial03 a) := of_special rfl rfl
theorem invalidSpecial04 (a : Operand) : Statement (.invalidSpecial04 a) := of_special rfl rfl
theorem invalidSpecial05 (a : Operand) : Statement (.invalidSpecial05 a) := of_special rfl rfl
theorem invalidSpecial06 (a : Operand) : Statement (.invalidSpecial06 a) := of_special rfl rfl
theorem invalidSpecial07 (a : Operand) : Statement (.invalidSpecial07 a) := of_special rfl rfl
theorem invalidSpecial0D (a : Operand) : Statement (.invalidSpecial0D a) := of_special rfl rfl
theorem invalidSpecial0E (a : Operand) : Statement (.invalidSpecial0E a) := of_special rfl rfl
theorem invalidSpecial0F (a : Operand) : Statement (.invalidSpecial0F a) := of_special rfl rfl
theorem invalidSpecial16 (a : Operand) : Statement (.invalidSpecial16 a) := of_special rfl rfl
theorem invalidSpecial17 (a : Operand) : Statement (.invalidSpecial17 a) := of_special rfl rfl
theorem invalidSpecial18 (a : Operand) : Statement (.invalidSpecial18 a) := of_special rfl rfl
theorem invalidSpecial19 (a : Operand) : Statement (.invalidSpecial19 a) := of_special rfl rfl
theorem invalidSpecial1A (a : Operand) : Statement (.invalidSpecial1A a) := of_special rfl rfl
theorem invalidSpecial1B (a : Operand) : Statement (.invalidSpecial1B a) := of_special rfl rfl
theorem invalidSpecial1C (a : Operand) : Statement (.invalidSpecial1C a) := of_special rfl rfl
theorem invalidSpecial1D (a : Operand) : Statement (.invalidSpecial1D a) := of_special rfl rfl
theorem invalidSpecial1E (a : Operand) : Statement (.invalidSpecial1E a) := of_special rfl rfl
theorem invalidSpecial1F (a : Operand) : Statement (.invalidSpecial1F a) := of_special rfl rfl

end Sys2Proof.Laws.EncodedLength
end

