-- ==== Sys2Proof/Tests/Slice0.lean ====
section
/-! SUPPORT. Tests. Expected results come from the spec: the encodings from spec/opcode_table.json and
spec/95_test_vectors.md 2.1, the state vectors from spec/95_test_vectors.md Part 2 (each test names its section), the truth
table of spec/43_conditional.md after R218. The witnesses at the end show, for each statement of the obligations, that its
hypotheses can be met. -/

namespace Sys2Proof.Tests

open Sys2Proof Sys2Proof.Machine

/-! ### WellFormed: each check refuses an ill-formed term -/

/-- R95: operand b is never a packed literal. -/
theorem test_wf_small_as_b : (Instr.set (.small 0) (.reg .a)).wf = false := by decide

/-- R95: 31 is above the packed literals. -/
theorem test_wf_small_above : (Instr.set (.reg .a) (.small 31)).wf = false := by decide

/-- R95: -2 is below the packed literals. -/
theorem test_wf_small_below : (Instr.add (.reg .a) (.small (-2))).wf = false := by decide

/-- R95, in the special format. -/
theorem test_wf_special : (Instr.jsr (.small 31)).wf = false := by decide

/-- R95: the ends of the range are well-formed. -/
theorem test_wf_ends : (Instr.set (.reg .a) (.small (-1))).wf && (Instr.jsr (.small 30)).wf = true := by decide

/-! ### Decoding: every row of spec/opcode_table.json, its word written out bit by bit with b = 00001 (B) and a = 000000 (A) -/

theorem test_decode_set : decodeTableWord 16 0b0000000000100001 = some (.set (.reg .b) (.reg .a)) := by decide
theorem test_decode_add : decodeTableWord 16 0b0000000000100010 = some (.add (.reg .b) (.reg .a)) := by decide
theorem test_decode_sub : decodeTableWord 16 0b0000000000100011 = some (.sub (.reg .b) (.reg .a)) := by decide
theorem test_decode_mul : decodeTableWord 16 0b0000000000100100 = some (.mul (.reg .b) (.reg .a)) := by decide
theorem test_decode_mli : decodeTableWord 16 0b0000000000100101 = some (.mli (.reg .b) (.reg .a)) := by decide
theorem test_decode_div : decodeTableWord 16 0b0000000000100110 = some (.div (.reg .b) (.reg .a)) := by decide
theorem test_decode_dvi : decodeTableWord 16 0b0000000000100111 = some (.dvi (.reg .b) (.reg .a)) := by decide
theorem test_decode_mod : decodeTableWord 16 0b0000000000101000 = some (.mod (.reg .b) (.reg .a)) := by decide
theorem test_decode_mdi : decodeTableWord 16 0b0000000000101001 = some (.mdi (.reg .b) (.reg .a)) := by decide
theorem test_decode_and : decodeTableWord 16 0b0000000000101010 = some (.and (.reg .b) (.reg .a)) := by decide
theorem test_decode_bor : decodeTableWord 16 0b0000000000101011 = some (.bor (.reg .b) (.reg .a)) := by decide
theorem test_decode_xor : decodeTableWord 16 0b0000000000101100 = some (.xor (.reg .b) (.reg .a)) := by decide
theorem test_decode_shr : decodeTableWord 16 0b0000000000101101 = some (.shr (.reg .b) (.reg .a)) := by decide
theorem test_decode_asr : decodeTableWord 16 0b0000000000101110 = some (.asr (.reg .b) (.reg .a)) := by decide
theorem test_decode_shl : decodeTableWord 16 0b0000000000101111 = some (.shl (.reg .b) (.reg .a)) := by decide
theorem test_decode_ifb : decodeTableWord 16 0b0000000000110000 = some (.ifb (.reg .b) (.reg .a)) := by decide
theorem test_decode_ifc : decodeTableWord 16 0b0000000000110001 = some (.ifc (.reg .b) (.reg .a)) := by decide
theorem test_decode_ife : decodeTableWord 16 0b0000000000110010 = some (.ife (.reg .b) (.reg .a)) := by decide
theorem test_decode_ifn : decodeTableWord 16 0b0000000000110011 = some (.ifn (.reg .b) (.reg .a)) := by decide
theorem test_decode_ifg : decodeTableWord 16 0b0000000000110100 = some (.ifg (.reg .b) (.reg .a)) := by decide
theorem test_decode_ifa : decodeTableWord 16 0b0000000000110101 = some (.ifa (.reg .b) (.reg .a)) := by decide
theorem test_decode_ifl : decodeTableWord 16 0b0000000000110110 = some (.ifl (.reg .b) (.reg .a)) := by decide
theorem test_decode_ifu : decodeTableWord 16 0b0000000000110111 = some (.ifu (.reg .b) (.reg .a)) := by decide
theorem test_decode_adx : decodeTableWord 16 0b0000000000111010 = some (.adx (.reg .b) (.reg .a)) := by decide
theorem test_decode_sbx : decodeTableWord 16 0b0000000000111011 = some (.sbx (.reg .b) (.reg .a)) := by decide
theorem test_decode_sti : decodeTableWord 16 0b0000000000111110 = some (.sti (.reg .b) (.reg .a)) := by decide
theorem test_decode_std : decodeTableWord 16 0b0000000000111111 = some (.std (.reg .b) (.reg .a)) := by decide
theorem test_decode_jsr : decodeTableWord 16 0b0000000000100000 = some (.jsr (.reg .a)) := by decide
theorem test_decode_int : decodeTableWord 16 0b0000000100000000 = some (.int (.reg .a)) := by decide
theorem test_decode_iag : decodeTableWord 16 0b0000000100100000 = some (.iag (.reg .a)) := by decide
theorem test_decode_ias : decodeTableWord 16 0b0000000101000000 = some (.ias (.reg .a)) := by decide
theorem test_decode_rfi : decodeTableWord 16 0b0000000101100000 = some (.rfi (.reg .a)) := by decide
theorem test_decode_iaq : decodeTableWord 16 0b0000000110000000 = some (.iaq (.reg .a)) := by decide
theorem test_decode_hwn : decodeTableWord 16 0b0000001000000000 = some (.hwn (.reg .a)) := by decide
theorem test_decode_hwq : decodeTableWord 16 0b0000001000100000 = some (.hwq (.reg .a)) := by decide
theorem test_decode_hwi : decodeTableWord 16 0b0000001001000000 = some (.hwi (.reg .a)) := by decide
theorem test_decode_log : decodeTableWord 16 0b0000001001100000 = some (.log (.reg .a)) := by decide
theorem test_decode_brk : decodeTableWord 16 0b0000001010000000 = some (.brk (.reg .a)) := by decide
theorem test_decode_hlt : decodeTableWord 16 0b0000001010100000 = some (.hlt (.reg .a)) := by decide
theorem test_decode_invalidBasic18 : decodeTableWord 16 0b0000000000111000 = some (.invalidBasic18 (.reg .b) (.reg .a)) := by decide
theorem test_decode_invalidBasic19 : decodeTableWord 16 0b0000000000111001 = some (.invalidBasic19 (.reg .b) (.reg .a)) := by decide
theorem test_decode_invalidBasic1C : decodeTableWord 16 0b0000000000111100 = some (.invalidBasic1C (.reg .b) (.reg .a)) := by decide
theorem test_decode_invalidBasic1D : decodeTableWord 16 0b0000000000111101 = some (.invalidBasic1D (.reg .b) (.reg .a)) := by decide
theorem test_decode_invalidSpecial00 : decodeTableWord 16 0b0000000000000000 = some (.invalidSpecial00 (.reg .a)) := by decide
theorem test_decode_invalidSpecial02 : decodeTableWord 16 0b0000000001000000 = some (.invalidSpecial02 (.reg .a)) := by decide
theorem test_decode_invalidSpecial03 : decodeTableWord 16 0b0000000001100000 = some (.invalidSpecial03 (.reg .a)) := by decide
theorem test_decode_invalidSpecial04 : decodeTableWord 16 0b0000000010000000 = some (.invalidSpecial04 (.reg .a)) := by decide
theorem test_decode_invalidSpecial05 : decodeTableWord 16 0b0000000010100000 = some (.invalidSpecial05 (.reg .a)) := by decide
theorem test_decode_invalidSpecial06 : decodeTableWord 16 0b0000000011000000 = some (.invalidSpecial06 (.reg .a)) := by decide
theorem test_decode_invalidSpecial07 : decodeTableWord 16 0b0000000011100000 = some (.invalidSpecial07 (.reg .a)) := by decide
theorem test_decode_invalidSpecial0D : decodeTableWord 16 0b0000000110100000 = some (.invalidSpecial0D (.reg .a)) := by decide
theorem test_decode_invalidSpecial0E : decodeTableWord 16 0b0000000111000000 = some (.invalidSpecial0E (.reg .a)) := by decide
theorem test_decode_invalidSpecial0F : decodeTableWord 16 0b0000000111100000 = some (.invalidSpecial0F (.reg .a)) := by decide
theorem test_decode_invalidSpecial16 : decodeTableWord 16 0b0000001011000000 = some (.invalidSpecial16 (.reg .a)) := by decide
theorem test_decode_invalidSpecial17 : decodeTableWord 16 0b0000001011100000 = some (.invalidSpecial17 (.reg .a)) := by decide
theorem test_decode_invalidSpecial18 : decodeTableWord 16 0b0000001100000000 = some (.invalidSpecial18 (.reg .a)) := by decide
theorem test_decode_invalidSpecial19 : decodeTableWord 16 0b0000001100100000 = some (.invalidSpecial19 (.reg .a)) := by decide
theorem test_decode_invalidSpecial1A : decodeTableWord 16 0b0000001101000000 = some (.invalidSpecial1A (.reg .a)) := by decide
theorem test_decode_invalidSpecial1B : decodeTableWord 16 0b0000001101100000 = some (.invalidSpecial1B (.reg .a)) := by decide
theorem test_decode_invalidSpecial1C : decodeTableWord 16 0b0000001110000000 = some (.invalidSpecial1C (.reg .a)) := by decide
theorem test_decode_invalidSpecial1D : decodeTableWord 16 0b0000001110100000 = some (.invalidSpecial1D (.reg .a)) := by decide
theorem test_decode_invalidSpecial1E : decodeTableWord 16 0b0000001111000000 = some (.invalidSpecial1E (.reg .a)) := by decide
theorem test_decode_invalidSpecial1F : decodeTableWord 16 0b0000001111100000 = some (.invalidSpecial1F (.reg .a)) := by decide

/-! ### Operands and lengths: spec/95_test_vectors.md 2.1 -/

/-- Two operands with extra words: operand a's word comes first (R104). -/
theorem test_decode_two_extra_words :
    decodeTableWord 48 0x0002_3000_7a22 = some (.add (.indOff .b 2) (.abs 0x3000)) ∧
      decodeTableWord 48 0x0002_0003_4a21 = some (.set (.indOff .b 2) (.indOff .c 3)) := by decide

/-- The packed literals' ends (R95). -/
theorem test_decode_small_literals :
    decodeTableWord 16 0x8001 = some (.set (.reg .a) (.small (-1))) ∧
      decodeTableWord 16 0xfc01 = some (.set (.reg .a) (.small 30)) ∧
      decodeTableWord 32 0x001f_7c01 = some (.set (.reg .a) (.lit 31)) := by decide

/-- The stack operands (R93). -/
theorem test_decode_stack_operands :
    decodeTableWord 16 0x0301 = some (.set .stack (.reg .a)) ∧ decodeTableWord 16 0x6381 = some (.set .pc .stack) ∧
      decodeTableWord 16 0x6401 = some (.set (.reg .a) .peek) ∧
      decodeTableWord 32 0x0002_6801 = some (.set (.reg .a) (.pick 2)) ∧
      decodeTableWord 16 0x6f01 = some (.set .stack .sp) ∧ decodeTableWord 16 0x7402 = some (.add (.reg .a) .ex) := by decide

/-- Memory operands through registers, and specials (R91). -/
theorem test_decode_indirect_and_special :
    decodeTableWord 16 0x3dde = some (.sti (.ind .i) (.ind .j)) ∧
      decodeTableWord 32 0x0200_7c20 = some (.jsr (.lit 0x200)) ∧ decodeTableWord 16 0xa100 = some (.int (.small 7)) ∧
      decodeTableWord 16 0x0520 = some (.iag (.reg .b)) ∧ decodeTableWord 16 0x1a00 = some (.hwn (.reg .i)) ∧
      decodeTableWord 16 0x8438 = some (.invalidBasic18 (.reg .b) (.small 0)) := by decide

/-- Lengths (R92): a special instruction never counts an extra word of its opcode field. -/
theorem test_lengths :
    lengthOfWord 0x8801 = 1 ∧ lengthOfWord 0x7f81 = 2 ∧ lengthOfWord 0x7fc1 = 3 ∧ lengthOfWord 0x7c20 = 2 ∧
      lengthOfWord 0x03e0 = 1 := by decide

/-- A list that ends inside an instruction is not decoded (R92). -/
theorem test_decode_truncated :
    (match decode SpecialNumbers.default [0x7fc1, 0x2000] with | .error .truncated => true | .ok _ => false) = true := by decide

/-- The worked encodings of R105. -/
theorem test_encode :
    [Instr.set .pc (.lit 0x1234), .add (.indOff .b 2) (.abs 0x3000), .hlt (.small 0)].map (encode SpecialNumbers.default) =
      [[0x7f81, 0x1234], [0x7a22, 0x3000, 0x0002], [0x86a0]] := by decide

/-- Other numbers than the defaults for LOG, BRK and HLT (R97): each takes a number the table leaves unassigned, or one that
another of the three has left. -/
def otherNumbers : SpecialNumbers := { log := 0x16#5, brk := 0x13#5, hlt := 0x02#5 }

/-- R97: the three follow their parameters, the freed numbers are unassigned, and JSR keeps its own. -/
theorem test_decode_other_numbers :
    decodeAt otherNumbers 0b0000001011000000 0 0 = .log (.reg .a) ∧
      decodeAt otherNumbers 0b0000001001100000 0 0 = .brk (.reg .a) ∧
      decodeAt otherNumbers 0b0000000001000000 0 0 = .hlt (.reg .a) ∧
      unassigned (decodeAt otherNumbers 0b0000001010000000 0 0) = true ∧
      unassigned (decodeAt otherNumbers 0b0000001010100000 0 0) = true ∧
      decodeAt otherNumbers 0b0000000000100000 0 0 = .jsr (.reg .a) := by decide

/-! ### One step -/

/-- The machine after Reset, running, with words at 0010 and `pc` there (95_test_vectors.md 2.2: "at `pc = 0010`"). -/
def at10 (ws : List Word) : State :=
  { State.reset with running := true, pc := 0x10, mem := Memory.place [] 0x10 ws }

/-- The same with A, B and EX set: the shape of the tables of 95_test_vectors.md 2.3 to 2.5. -/
def at10AB (w b a ex : Word) : State :=
  { at10 [w] with regs := { Regs.zero with a := a, b := b }, ex := ex }

/-- One field, or a few, of the state a step leaves. -/
def afterStep {α : Type} (f : State → α) (s : State) : Option α :=
  match step s with
  | .next t => some (f t)
  | .fault _ => none
  | .refused _ => none

/-- B and EX after one step. -/
def bEx (s : State) : Option (Word × Word) := afterStep (fun t => (t.regs.b, t.ex)) s

/-- Whether a conditional sets `skipping`. -/
def skips (s : State) : Option Bool := afterStep State.skipping s

/-! 2.2, operands and write-back. -/

theorem test_set_push : afterStep (fun t => (t.sp, t.read 0xffff, t.pc)) { at10 [0x0301] with
    regs := { Regs.zero with a := 0x1234 } } = some (0xffff, 0x1234, 0x11) := by decide

theorem test_set_push_sp : afterStep (fun t => (t.sp, t.read 0xff)) { at10 [0x6f01] with sp := 0x100 } =
    some (0xff, 0x100) := by decide

theorem test_add_push : afterStep (fun t => (t.sp, t.read 0xff, t.ex))
    ({ at10 [0x8b02] with sp := 0x100 }.write 0xff 0xffff) = some (0xff, 0, 1) := by decide

theorem test_add_sp_pop : afterStep (fun t => t.sp) ({ at10 [0x6362] with sp := 0x100 }.write 0x100 0x10) =
    some 0x111 := by decide

theorem test_set_peek_pop : afterStep (fun t => (t.sp, t.read 0x101))
    (({ at10 [0x6321] with sp := 0x100 }.write 0x100 0xaa).write 0x101 0xbb) = some (0x101, 0xaa) := by decide

theorem test_set_pick_wraps : afterStep (fun t => (t.regs.a, t.pc, t.wait))
    ({ at10 [0x6801, 2] with sp := 0xfffe }.write 0 0x7777) = some (0x7777, 0x12, 1) := by decide

theorem test_set_off_pc : afterStep (fun t => (t.read 0x105, t.pc, t.wait))
    { at10 [0x7201, 5] with regs := { Regs.zero with a := 0x100 } } = some (0x12, 0x12, 1) := by decide

theorem test_sub_pc : afterStep (fun t => (t.pc, t.ex, t.wait)) (at10 [0x8b83]) = some (0x10, 0, 1) := by decide

theorem test_add_literal_as_b : afterStep (fun t => (t.ex, t.pc, t.wait)) (at10 [0x8be2, 0xffff]) =
    some (1, 0x12, 2) := by decide

theorem test_add_ex_rule_wins : afterStep State.ex { at10 [0x8ba2] with ex := 5 } = some 0 := by decide

theorem test_set_two_offsets : afterStep (fun t => (t.read 0x102, t.pc, t.wait))
    ({ at10 [0x4a21, 3, 2] with regs := { Regs.zero with b := 0x100, c := 0x200 } }.write 0x203 0x4242) =
      some (0x4242, 0x13, 2) := by decide

theorem test_fetch_wraps : afterStep (fun t => (t.regs.a, t.pc))
    { State.reset with running := true, pc := 0xffff, mem := Memory.place [] 0xffff [0x7c01, 0x4321] } =
      some (0x4321, 1) := by decide

theorem test_both_stack_operands :
    (match step (at10 [0x6301]) with | .refused .bothStackOperands => true | _ => false) = true := by decide

/-! 2.3, arithmetic: `OP B, A`. -/

theorem test_set : bEx (at10AB 0x0021 0x1234 0xabcd 0x77) = some (0xabcd, 0x77) := by decide
theorem test_add_carry : bEx (at10AB 0x0022 0xffff 1 0) = some (0, 1) := by decide
theorem test_add_no_carry : bEx (at10AB 0x0022 0x1234 0x1111 0xffff) = some (0x2345, 0) := by decide
theorem test_sub_borrow : bEx (at10AB 0x0023 5 7 0) = some (0xfffe, 0xffff) := by decide
theorem test_sub_no_borrow : bEx (at10AB 0x0023 7 5 0xffff) = some (2, 0) := by decide
theorem test_mul : bEx (at10AB 0x0024 0xffff 0xffff 0) = some (1, 0xfffe) := by decide
theorem test_mli_negative : bEx (at10AB 0x0025 0xfffe 3 0) = some (0xfffa, 0xffff) := by decide
theorem test_mli_minimum : bEx (at10AB 0x0025 0x8000 0x8000 0) = some (0, 0x4000) := by decide
theorem test_div_fraction : bEx (at10AB 0x0026 1 3 0) = some (0, 0x5555) := by decide
theorem test_div_zero : bEx (at10AB 0x0026 0xffff 0 0x55) = some (0, 0) := by decide
theorem test_dvi_toward_zero : bEx (at10AB 0x0027 0xffff 3 0) = some (0, 0xaaab) := by decide
theorem test_dvi_minimum : bEx (at10AB 0x0027 0x8000 0xffff 0x55) = some (0x8000, 0) := by decide
theorem test_mod : bEx (at10AB 0x0028 7 3 0x55) = some (1, 0x55) := by decide
theorem test_mod_zero : bEx (at10AB 0x0028 7 0 0x55) = some (0, 0) := by decide
theorem test_mdi_sign_of_dividend : bEx (at10AB 0x0029 0xfff9 0x10 0x55) = some (0xfff9, 0x55) := by decide
theorem test_mdi_zero : bEx (at10AB 0x0029 0xfff9 0 0x55) = some (0, 0) := by decide
theorem test_adx_wide : bEx (at10AB 0x003a 0xffff 0xffff 0xffff) = some (0xfffd, 1) := by decide
theorem test_adx : bEx (at10AB 0x003a 1 2 0xffff) = some (2, 1) := by decide
theorem test_sbx_unsigned_ex : bEx (at10AB 0x003b 5 5 0xffff) = some (0xffff, 0) := by decide
theorem test_sbx_overflow : bEx (at10AB 0x003b 0xffff 0 1) = some (0, 1) := by decide

theorem test_sti_wraps : afterStep (fun t => (t.regs.a, t.regs.i, t.regs.j))
    { at10 [0x041e] with regs := { Regs.zero with b := 7, i := 0xffff, j := 0xffff } } = some (7, 0, 0) := by decide

theorem test_std_moves_first : afterStep (fun t => (t.regs.i, t.regs.j))
    { at10 [0x1cdf] with regs := { Regs.zero with i := 0x10, j := 0x20 } } = some (0x1f, 0x1f) := by decide

/-! 2.4, logic and shifts. -/

theorem test_and : bEx (at10AB 0x002a 0xf0f0 0x3c3c 0x77) = some (0x3030, 0x77) := by decide
theorem test_bor : bEx (at10AB 0x002b 0xf0f0 0x3c3c 0x77) = some (0xfcfc, 0x77) := by decide
theorem test_xor : bEx (at10AB 0x002c 0xf0f0 0x3c3c 0x77) = some (0xcccc, 0x77) := by decide
theorem test_shr : bEx (at10AB 0x002d 0x8001 1 0) = some (0x4000, 0x8000) := by decide
theorem test_shr_17 : bEx (at10AB 0x002d 0xabcd 0x11 0) = some (0, 0x55e6) := by decide
theorem test_asr : bEx (at10AB 0x002e 0x8001 1 0) = some (0xc000, 0x8000) := by decide
theorem test_asr_17 : bEx (at10AB 0x002e 0xabcd 0x11 0) = some (0xffff, 0x55e6) := by decide
theorem test_shl : bEx (at10AB 0x002f 0xffff 4 0) = some (0xfff0, 0xf) := by decide
theorem test_shl_31 : bEx (at10AB 0x002f 0xabcd 0x1f 0) = some (0, 0x8000) := by decide

/-! 2.5, conditionals; the rows of the truth table after R218 that tell each condition from its neighbours. -/

theorem test_ifb : skips (at10AB 0x0030 0x8000 0x7fff 0) = some true := by decide
theorem test_ifc : skips (at10AB 0x0031 0x8000 0x7fff 0) = some false := by decide
theorem test_ife : skips (at10AB 0x0032 5 5 0) = some false := by decide
theorem test_ifn : skips (at10AB 0x0033 5 5 0) = some true := by decide
theorem test_ifg_unsigned : skips (at10AB 0x0034 0xffff 1 0) = some false := by decide
theorem test_ifa_signed : skips (at10AB 0x0035 0xffff 1 0) = some true := by decide
theorem test_ifl_unsigned : skips (at10AB 0x0036 1 0xffff 0) = some false := by decide
theorem test_ifu_signed : skips (at10AB 0x0037 1 0xffff 0) = some true := by decide

/-- A conditional that holds while skipping leaves `skipping` set (R223). -/
theorem test_ife_chain : afterStep (fun t => (t.skipping, t.wait)) { at10 [0x8812] with
    regs := { Regs.zero with a := 1 }, skipping := true } = some (true, 2) := by decide

/-- A skip passes three words over and stores nothing (R221). -/
theorem test_skip_three_words : afterStep (fun t => (t.pc, t.read 0x1000, t.skipping, t.wait))
    { at10 [0x7fc1, 0x2000, 0x1000] with skipping := true } = some (0x13, 0, false, 0) := by decide

/-- A skipped unassigned word is no fatal halt (R101). -/
theorem test_skip_unassigned : afterStep (fun t => (t.running, t.pc)) { at10 [0x0018] with skipping := true } =
    some (true, 0x11) := by decide

/-! 2.6, special instructions. -/

theorem test_jsr : afterStep (fun t => (t.pc, t.sp, t.read 0xffff, t.wait)) (at10 [0x7c20, 0x0200]) =
    some (0x200, 0xffff, 0x12, 3) := by decide

theorem test_jsr_pop : afterStep (fun t => (t.pc, t.sp, t.read 0xfffe))
    ({ at10 [0x6020] with sp := 0xfffe }.write 0xfffe 0x400) = some (0x400, 0xfffe, 0x11) := by decide

theorem test_int_queues : afterStep (fun t => (t.iq, t.pc, t.wait)) { at10 [0xa100] with
    ia := 0x300, iqEnable := false, iq := [1] } = some ([1, 7], 0x11, 3) := by decide

theorem test_int_dropped : afterStep (fun t => (t.iq, t.wait)) (at10 [0xa100]) = some ([], 3) := by decide

theorem test_iag : afterStep (fun t => (t.regs.b, t.wait)) { at10 [0x0520] with ia := 0x300 } = some (0x300, 0) := by decide

theorem test_iag_literal : afterStep (fun t => (t.regs, t.pc)) { at10 [0x9920] with ia := 0x300 } =
    some (Regs.zero, 0x11) := by decide

theorem test_ias : afterStep (fun t => (t.ia, t.pc, t.wait)) (at10 [0x7d40, 0x0300]) = some (0x300, 0x12, 1) := by decide

theorem test_rfi : afterStep (fun t => (t.regs.a, t.pc, t.sp, t.iqEnable))
    (({ at10 [0x8560] with sp := 0xfffe, iqEnable := false }.write 0xfffe 0xaaaa).write 0xffff 0x123) =
      some (0xaaaa, 0x123, 0, true) := by decide

theorem test_iaq_off : afterStep State.iqEnable (at10 [0x8980]) = some false := by decide

theorem test_iaq_on : afterStep State.iqEnable { at10 [0x8580] with iqEnable := false } = some true := by decide

/-- A device of the processor; the identity is the one of 95_test_vectors.md 2.6. -/
def sample : Device :=
  { upstream := .processor, kind := .other []
    identity := { deviceId := 0x12d0b402, manufacturerId := 0x1c6c8b36, version := 1 } }

theorem test_hwn : afterStep (fun t => (t.regs.i, t.wait)) { at10 [0x1a00] with devices := [sample, sample, sample] } =
    some (3, 1) := by decide

theorem test_hwq : afterStep State.regs { at10 [0x0220] with devices := [sample] } =
    some { Regs.zero with a := 0xb402, b := 0x12d0, c := 1, x := 0x8b36, y := 0x1c6c } := by decide

theorem test_hwq_out_of_range : afterStep (fun t => (t.regs.a, t.wait)) { at10 [0x0220] with
    regs := { Regs.zero with a := 5 }, devices := [sample, sample, sample] } = some (5, 3) := by decide

theorem test_hwi_no_device : afterStep (fun t => (t.pc, t.wait)) (at10 [0x0240]) = some (0x11, 3) := by decide

theorem test_log : afterStep (fun t => (t.regs, t.pc, t.wait)) (at10 [0x0260]) = some (Regs.zero, 0x11, 0) := by decide

theorem test_brk : afterStep (fun t => (t.regs, t.pc, t.wait)) (at10 [0x8680]) = some (Regs.zero, 0x11, 0) := by decide

theorem test_hlt : afterStep (fun t => (t.halted, t.running, t.pc)) (at10 [0x86a0]) = some (true, true, 0x11) := by decide

theorem test_unassigned_special : afterStep (fun t => (t.running, t.pc)) (at10 [0x0000]) = some (false, 0x11) := by decide

theorem test_unassigned_extra_word : afterStep (fun t => (t.running, t.pc, t.wait)) (at10 [0x7c1c, 0x5555]) =
    some (false, 0x12, 0) := by decide

/-! 2.7, interrupt delivery and the loop. -/

/-- The state of the delivery vector. -/
def delivery : State :=
  { State.reset with running := true, pc := 5, regs := { Regs.zero with a := 0x5555 }, ia := 0x10, iq := [7]
                     mem := Memory.place [] 0x10 [0x0041] }

theorem test_delivery : afterStep (fun t => (t.read 0xffff, t.read 0xfffe, t.sp, t.regs.a, t.iqEnable)) delivery =
    some (5, 0x5555, 0xfffe, 7, false) := by decide

theorem test_delivery_runs_the_handler : afterStep (fun t => (t.regs.c, t.pc, t.iq)) delivery =
    some (7, 0x11, []) := by decide

theorem test_delivery_wakes : afterStep (fun t => (t.halted, t.regs.c)) { delivery with halted := true } =
    some (false, 7) := by decide

theorem test_skip_holds_delivery_off : afterStep (fun t => (t.iq, t.skipping)) { delivery with skipping := true } =
    some ([7], false) := by decide

/-- `IFE A, 0` holds, and then a message is queued. By R290's three conditions, as the machine is reset, the next step runs
the handler; under the parameter's other value it runs the guarded `SET B, 1` and the message waits. -/
theorem test_delivery_after_a_true_conditional :
    [State.reset.config.interruptUnit, .wholeUnit].map (fun unit =>
      afterStep (fun t => afterStep (fun u => (u.iq, u.regs.b, u.pc)) { t with wait := 0, ia := 0x20, iq := [7] })
        { at10 [0x8412, 0x8821] with config := { Config.default with interruptUnit := unit } }) =
    [some (some ([], 0, 0x21)), some (some ([7], 1, 0x12))] := by decide

theorem test_wait_holds_delivery_off : afterStep (fun t => (t.iq, t.wait)) { delivery with wait := 2 } =
    some ([7], 1) := by decide

/-- The ticks of 95_test_vectors.md 2.7 with `RATE_DIVISOR = 4`: 6 ticks in hand run one iteration and leave 2. -/
theorem test_tick_divisor :
    (match { at10 [0x8802] with leftover := 3, config := { Config.default with rateDivisor := 4 } }.tick 3 with
      | .next t => some (t.leftover, t.regs.a, t.pc, t.wait)
      | _ => none) = some (2, 1, 0x11, 1) := by decide

/-! 2.8, memory and subscriptions. -/

theorem test_load_wraps : (fun t : State => (t.read 0xffff, t.read 0, t.isDirty 4095, t.isDirty 0, t.isDirty 1))
    ({ State.reset with dirty := [(0, false), (1, false), (4095, false)] }.load 0xffff [1, 2]) = (1, 2, true, true, false) := by decide

theorem test_cover :
    (fun u : Subscription => (u.first, u.last)) { owner := 0, base := 0x800f, length := 2, registered := false } =
      (0x800, 0x801) ∧
    (fun u : Subscription => (u.first, u.last)) { owner := 0, base := 0xfff8, length := 64, registered := false } =
      (4095, 4095) ∧
    (fun u : Subscription => (u.first, u.last)) { owner := 0, base := 0x8000, length := 0, registered := false } =
      (0x800, 0x800) := by decide

/-- Two subscriptions over a region, one unregistered. -/
theorem test_sync_counts :
    (fun t : State => (t.syncOf 0x800, t.syncOf 0x801, t.liveSubscriptions 0x800))
      (((State.reset.registerSync 0 0x8000 1).registerSync 0 0x8000 17).unregister 0) = (1, 1, 1) := by decide

/-! The host's entry points. -/

/-- What `withFetchWord` lays down runs as the first instruction after reset. -/
theorem test_withFetchWord : afterStep (fun t => (t.regs.a, t.pc)) (State.reset.withFetchWord 32 0x4321_7c01) =
    some (0x4321, 2) := by decide

/-- Scenario S7: reset of a machine with a ROM of `SET PC, 0x1234`, then Start, then one step. -/
theorem test_boot_rom :
    afterStep State.pc ({ State.reset with devices := [{ sample with kind := .rom [0x7f81, 0x1234] }] }.hostReset.start) =
      some 0x1234 := by decide

/-- The ROM's load command where it does not come by HWI (R310): the image lies at 0 and the words above it stay. -/
theorem test_rom_command :
    (match hostStep (.romCommand 0) { at10 [0x0041] with devices := [{ sample with kind := .rom [0x7f81, 0x1234] }] } with
      | .next t => some (t.read 0, t.read 1, t.read 0x10, t.pc)
      | _ => none) = some (0x7f81, 0x1234, 0x41, 0) := by decide

/-- The storage controller of scenario S8. -/
def controller : Storage :=
  { settings := { noMediumOnWrite := 0, serviceTime := 3, acknowledges := false }
    messages := { acknowledge := 1, completion := 2, medium := 3 }
    medium := none, transfer := none, error := 0, activity := false }

/-- A read in flight whose completion has been signalled, with one tick of service time left. -/
def transfer : Transfer :=
  { kind := .reading, sector := 0, window := 0x8000, remaining := 1
    block := some (((Vector.replicate 512 0).set 0 0x11).set 1 0x22), completed := true }

/-- A machine whose one device is a storage controller. -/
def storing (c : Storage) : State := { State.reset with ia := 1, devices := [{ sample with kind := .storage c }] }

/-- Scenario S8: error code 2, no Busy state; and the same report from a controller that is Busy, its medium removed
(R314, R319), whose transfer goes on. -/
theorem test_storage_no_medium :
    [controller, { controller with transfer := some { transfer with block := none } }].map (fun c =>
      match (storing c).storageCommand 0 .reading 0 0x8000 with
      | .next t => t.storageAt 0
      | _ => none) =
    [some { controller with error := 2 },
     some { controller with error := 2, transfer := some { transfer with block := none } }] := by decide

/-- R318: once signalled, completion and block stay. -/
theorem test_storage_hand_off_once : transfer.handOff (Vector.replicate 512 7) = transfer := rfl

/-- Scenario S9, its last tick: the window holds the block, one interrupt is raised, the controller is Idle. -/
theorem test_storage_completes :
    (match (storing { controller with transfer := some transfer }).storageTick 0 with
      | .next t => some (t.read 0x8000, t.read 0x8001, t.iq, t.storageAt 0)
      | _ => none) = some (0x11, 0x22, [2], some { controller with activity := true }) := by decide +kernel

/-! HWI with a stated command (R310, R314, R315); the device's other acts stand beside the stated effect. -/

/-- A ROM's load command: the image over what the device writes itself, `pc` 0, and the register it writes. -/
theorem test_hwi_rom_load :
    (fun t : State => (t.read 0, t.read 0x20, t.pc, t.regs.b, t.wait))
      ({ at10 [] with devices := [{ sample with kind := .rom [0x7f81, 0x1234] }] }.runHandler 0 (some .loadImage)
        [.write 0 9, .write 0x20 5, .setPc 7, .setReg .b 3, .addWait 4] []) = (0x7f81, 5, 0, 3, 4) := by decide

/-- Scenario S8, by HWI: error code 2 and no Busy state. -/
theorem test_hwi_no_medium :
    ((storing controller).runHandler 0 (some (.transfer .reading 0 0x8000)) [.internal (.setStatus 9 true)] []).storageAt 0 =
      some { controller with error := 2, activity := true } := by decide

/-- R315: a read begun, acknowledged between the device's own messages, with a register written and a wait added. -/
theorem test_hwi_transfer :
    (fun t : State => (t.storageAt 0, t.iq, t.regs.a, t.wait))
      ((storing { controller with medium := some 4, settings := { controller.settings with acknowledges := true } }).runHandler
        0 (some (.transfer .reading 6 0x8000)) [.raise 8, .addWait 2] [.setReg .a 1, .raise 9]) =
    (some { controller with
        medium := some 4, settings := { controller.settings with acknowledges := true }
        transfer := some { kind := .reading, sector := 6, window := 0x8000, remaining := 3, block := none, completed := false } },
      [8, 1, 9], 1, 2) := by decide

/-- R319: a command to a Busy controller does not cancel its transfer. -/
theorem test_hwi_busy :
    ((storing { controller with medium := some 4, transfer := some { transfer with block := none } }).runHandler 0
      (some (.transfer .writing 1 0x9000)) [] []).storageAt 0 =
    some { controller with medium := some 4, transfer := some { transfer with block := none } } := by decide

/-- R343, R346: of two ROM images the one reached last overlays the other; a subscription of a device reached is given up. -/
theorem test_reset_overlays :
    (fun t : State => (t.read 0, t.read 1, t.read 0x20, t.pc, t.isDirty 0, t.syncOf 0x800))
      ({ at10 [] with devices := [{ sample with kind := .rom [1, 2] }, { sample with kind := .rom [3] }] }.registerSync
        0 0x8000 16 |>.hostReset) = (3, 2, 0, 0, true, 0) := by decide

/-! ### Witnesses: the hypotheses of each statement of Obligations.lean can be met together -/

/-- `DecodeOfEncodeIsTheInstruction`, at the ends of the packed literals too. -/
theorem witness_DecodeOfEncodeIsTheInstruction :
    (Instr.add (.indOff .b 2) (.abs 0x3000)).wf = true ∧ (Instr.set (.reg .a) (.small (-1))).wf = true ∧
      (Instr.jsr (.small 30)).wf = true := by decide

/-- `LengthIsAFunctionOfTheWord`: its clause about special instructions, at the longest. -/
theorem witness_LengthIsAFunctionOfTheWord : (0x7c20 : Word).toNat % 32 = 0 ∧ (0x7fc1 : Word).toNat % 32 ≠ 0 := by decide

/-- `StepRunsDecodedInstruction`. -/
theorem witness_StepRunsDecodedInstruction :
    let s := at10 [0x7f81, 0x1234]
    s.running = true ∧ s.wait = 0 ∧ s.deliverable = false ∧ s.halted = false ∧ s.skipping = false ∧
      (match decode s.config.specialNumbers [s.read s.pc, s.read (s.pc + 1), s.read (s.pc + 2)] with
        | .ok p => p == (.set .pc (.lit 0x1234), [0])
        | .error _ => false) = true := by decide

/-- `SkippingPassesOverNonConditionals`, both clauses. -/
theorem witness_SkippingPassesOverNonConditionals :
    (let s := { at10 [0x8821] with skipping := true }
     s.running = true ∧ s.wait = 0 ∧ s.halted = false ∧ s.skipping = true ∧ s.fetched.isConditional = false) ∧
    (let s := { at10 [0x8812] with skipping := true }
     s.running = true ∧ s.wait = 0 ∧ s.halted = false ∧ s.skipping = true ∧ s.fetched.isConditional = true) := by decide

/-- `StepPaysOneWaitCycle`, at one cycle owed. -/
theorem witness_StepPaysOneWaitCycle :
    let s := { at10 [0x8821] with wait := 1 }
    s.running = true ∧ 0 < s.wait := by decide

/-- `StoppedMachineIsFrozen`. -/
theorem witness_StoppedMachineIsFrozen : State.reset.frozen := rfl

/-- `HaltedMachineWaitsForDelivery`: nothing queued and nothing accepted; delivery off; and, for the first clause alone,
nothing queued but messages accepted. -/
theorem witness_HaltedMachineWaitsForDelivery :
    (let s := { at10 [0x86a0] with halted := true }
     s.running = true ∧ s.wait = 0 ∧ s.halted = true ∧ s.deliverable = false ∧ s.haltedForGood) ∧
    (let s := { at10 [0x86a0] with halted := true, ia := 1, iq := [7], iqEnable := false }
     s.running = true ∧ s.wait = 0 ∧ s.halted = true ∧ s.deliverable = false ∧ s.haltedForGood) ∧
    (let s := { at10 [0x86a0] with halted := true, ia := 1 }
     s.running = true ∧ s.wait = 0 ∧ s.halted = true ∧ s.deliverable = false) :=
  ⟨⟨rfl, rfl, rfl, rfl, rfl, .inl ⟨rfl, rfl⟩⟩, ⟨rfl, rfl, rfl, rfl, rfl, .inr rfl⟩, ⟨rfl, rfl, rfl, rfl⟩⟩

/-- `DeliveryEntersTheHandler` and `DeliveryThenRfiRestores`. -/
theorem witness_DeliveryEntersTheHandler : delivery.tablesWf = true ∧ delivery.iq = 7 :: [] ∧ delivery.deliverable = true := by
  decide

/-- `delivery` inside a unit, on a machine that counts units. -/
def insideUnit : State :=
  { delivery with guarding := true, config := { Config.default with interruptUnit := .wholeUnit } }

/-- `DeliveryPrecedesTheInstruction`, its first two clauses: a delivery, inside a unit on a machine that counts none too, and
each of the four ways there is none. -/
theorem witness_DeliveryPrecedesTheInstruction :
    (∀ s ∈ [delivery, { insideUnit with guarding := false }, { delivery with guarding := true }],
      s.running = true ∧ s.wait = 0 ∧ s.iqEnable = true ∧ s.skipping = false ∧ s.iq ≠ [] ∧
        ¬ (s.config.interruptUnit = .wholeUnit ∧ s.guarding = true)) ∧
    (∀ s ∈ [{ delivery with iqEnable := false }, { delivery with skipping := true }, { delivery with iq := [] }, insideUnit],
      s.running = true ∧ s.wait = 0 ∧
        ¬ (s.iqEnable = true ∧ s.skipping = false ∧ s.iq ≠ [] ∧
          ¬ (s.config.interruptUnit = .wholeUnit ∧ s.guarding = true)) ∧
        (afterStep id s).isSome = true) := by decide

/-- `DeliveryPrecedesTheInstruction`, its third clause. -/
theorem witness_DeliveryPrecedesTheInstruction_unit :
    let s := { insideUnit with mem := Memory.place [] 5 [0x8412] }
    s.running = true ∧ s.wait = 0 ∧ (s.config.interruptUnit = .wholeUnit ∧ s.guarding = true) ∧ s.halted = false ∧
      s.fetched.isConditional = true ∧ (afterStep id s).isSome = true := by decide

/-- `UnassignedEncodingEndsTheRun`. -/
theorem witness_UnassignedEncodingEndsTheRun :
    let s := at10 [0x7c1c, 0x5555]
    s.running = true ∧ s.wait = 0 ∧ s.deliverable = false ∧ s.halted = false ∧ s.skipping = false ∧
      unassigned s.fetched = true := by decide

/-- A running machine with a message queued and a word in memory satisfies the invariant. -/
theorem delivery_inv : delivery.Inv where
  tables := by decide
  queue := by decide
  counts := fun _ => rfl
  devices := rfl
  deviceCount := by decide
  config := by decide

/-- `StepKeepsTheInvariant`. -/
theorem witness_StepKeepsTheInvariant : delivery.Inv ∧ (afterStep id delivery).isSome = true :=
  ⟨delivery_inv, by decide⟩

/-- `HostActionsKeepTheInvariant`: a Tick that executes, and a device's subscription. -/
theorem witness_HostActionsKeepTheInvariant :
    delivery.Inv ∧ (match hostStep (.tick 1) delivery with | .next _ => true | _ => false) = true ∧
      ({ delivery with devices := [sample] } : State).Inv ∧
      (match hostStep (.deviceActs 0 [.registerSync 0x8000 384]) { delivery with devices := [sample] } with
        | .next _ => true
        | _ => false) = true :=
  ⟨delivery_inv, by decide, { delivery_inv with devices := by decide, deviceCount := by decide }, by decide⟩

/-- `ParametersAndDeviceTableAreConstant`. -/
theorem witness_ParametersAndDeviceTableAreConstant :
    (afterStep State.devices { at10 [0x8821] with devices := [sample] }).isSome = true := by decide

/-- A field after one instruction. -/
def afterExec {α : Type} (f : State → α) (i : Instr) (s : State) : Option α :=
  match exec i s with
  | .next t => some (f t)
  | .fault _ => none
  | .refused _ => none

/-- `OnlyTheNamedInstructionsWriteControlState`: an instruction that changes each of the five fields. -/
theorem witness_OnlyTheNamedInstructionsWriteControlState :
    afterExec State.skipping (.ife (.reg .a) (.small 1)) State.reset = some true ∧
      afterExec State.ia (.ias (.small 1)) State.reset = some 1 ∧
      afterExec State.iqEnable (.iaq (.small 1)) State.reset = some false ∧
      afterExec State.iqEnable (.rfi (.small 0)) { State.reset with iqEnable := false } = some true ∧
      afterExec State.halted (.hlt (.small 0)) State.reset = some true ∧
      afterExec State.running (.invalidSpecial00 (.small 0)) delivery = some false := by decide

/-- `OnlyTheNamedInstructionsWriteEx`: a change of EX in each of the groups it names. -/
theorem witness_OnlyTheNamedInstructionsWriteEx :
    afterExec State.ex (.sub (.reg .a) (.small 1)) State.reset = some 0xffff ∧
      afterExec State.ex (.mod (.reg .a) (.small 0)) { State.reset with ex := 5 } = some 0 ∧
      afterExec State.ex (.mod .ex (.small 2)) { State.reset with ex := 5 } = some 1 ∧
      afterExec State.ex (.set .ex (.small 7)) State.reset = some 7 ∧
      afterExec State.ex (.iag .ex) { State.reset with ia := 3 } = some 3 := by decide

/-- `EveryInstructionCompletes`, both clauses, and an unassigned encoding with both selectors 0x18. -/
theorem witness_EveryInstructionCompletes :
    (unassigned (.set .stack .stack) = false ∧ (Instr.set .stack .stack).operands = .basic .stack .stack) ∧
      ¬ (unassigned (.set .stack .peek) = false ∧ (Instr.set .stack .peek).operands = .basic .stack .stack) ∧
      ¬ (unassigned (.invalidBasic18 .stack .stack) = false ∧
        (Instr.invalidBasic18 .stack .stack).operands = .basic .stack .stack) := by decide

/-- `WaitCostsDecideNothingButWait`. -/
theorem witness_WaitCostsDecideNothingButWait :
    (∀ a, Instr.add (.reg .b) (.reg .a) ≠ .hwi a) ∧
      (afterExec State.ex (.add (.reg .b) (.reg .a)) State.reset).isSome = true :=
  ⟨fun _ h => Instr.noConfusion h, by decide⟩

/-- `WriteThenReadGivesTheWord`, `LoadWritesItsWords`, `JsrPushesAndJumps`, `IagStoresIa`: canonical tables. -/
theorem witness_tablesWf : delivery.tablesWf = true ∧ State.reset.tablesWf = true := by decide

/-- One registered subscription, one record that is not. -/
def subscribed : State :=
  { State.reset with
    subs := [{ owner := 0, base := 0x8000, length := 16, registered := true },
             { owner := 0, base := 0xfff8, length := 64, registered := false }]
    syncCount := [(0x800, 1)] }

/-- R72 holds of `subscribed`, being what `registerSync` makes of an empty registry. -/
theorem subscribed_countsAgree : subscribed.countsAgree := by
  have h : ({ State.reset with
      subs := [{ owner := 0, base := 0x8000, length := 16, registered := false },
               { owner := 0, base := 0xfff8, length := 64, registered := false }] } : State).countsAgree := fun _ => rfl
  exact State.register_countsAgree _ (by decide) h 0

/-- `RegisterCountsCoveredRegions`, both clauses: record 0 is registered, record 1 is not; record 1 is cut at region 4095. -/
theorem witness_RegisterCountsCoveredRegions :
    subscribed.tablesWf = true ∧ subscribed.subs[0]?.map Subscription.registered = some true ∧
      subscribed.subs[1]?.map Subscription.registered = some false := by decide

/-- `UnregisterUndoesRegisterSync`: both kinds of record, and for its second part a machine without any. -/
theorem witness_UnregisterUndoesRegisterSync :
    subscribed.tablesWf = true ∧ subscribed.countsAgree ∧ subscribed.subs[0]?.map Subscription.registered = some true ∧
      subscribed.subs[1]?.map Subscription.registered = some false ∧
      State.reset.tablesWf = true ∧ State.reset.subs = [] :=
  ⟨by decide, subscribed_countsAgree, rfl, rfl, by decide, rfl⟩

/-- `RaiseQueuesOrDrops`: the last place of the queue, the full queue, and `ia = 0`. -/
theorem witness_RaiseQueuesOrDrops :
    (let s := { State.reset with ia := 1, iq := List.replicate 255 0 }
     s.ia ≠ 0 ∧ s.iq.length < 256) ∧
    (let s := { State.reset with ia := 1, iq := List.replicate 256 0 }
     s.ia ≠ 0 ∧ 256 ≤ s.iq.length) ∧
    State.reset.ia = 0 :=
  ⟨⟨by decide, List.length_replicate.trans_lt (by decide)⟩, ⟨by decide, List.length_replicate.ge⟩, rfl⟩

/-- `QueueSaturatesAt256`, both clauses. -/
theorem witness_QueueSaturatesAt256 :
    (let s := { State.reset with ia := 1 }
     s.ia ≠ 0 ∧ s.iq = []) ∧ State.reset.ia = 0 := by decide

/-- `ResetLeavesTheStatedValues`: canonical tables with counts that agree; devices that are no ROM; no devices. -/
theorem witness_ResetLeavesTheStatedValues :
    (subscribed.tablesWf = true ∧ subscribed.countsAgree) ∧
    (∀ d ∈ ({ delivery with devices := [sample, { sample with kind := .storage controller }] } : State).devices,
      ∀ image, d.kind ≠ .rom image) ∧ delivery.devices = [] :=
  ⟨⟨by decide, subscribed_countsAgree⟩, by simp [sample], rfl⟩

/-- `ResetLoadsTheRom`: several ROMs, a single one, and one among other devices for its load command. -/
theorem witness_ResetLoadsTheRom :
    (let s := { delivery with devices := [sample, { sample with kind := .rom [1, 2] }, { sample with kind := .rom [3] }] }
     s.tablesWf = true ∧ s.romImages = [[1, 2], [3]] ∧ s.devices[2]? = some { sample with kind := .rom [3] }) ∧
    (let s := { delivery with devices := [{ sample with kind := .rom [0x7f81, 0x1234] }] }
     s.tablesWf = true ∧
      s.devices = [{ upstream := .processor, identity := sample.identity, kind := .rom [0x7f81, 0x1234] }]) := by decide

/-- `AttachGivesTheNextIndex`. -/
theorem witness_AttachGivesTheNextIndex : State.reset.running = false ∧ State.reset.deviceCount < 65535 := by decide

/-- `TickCarriesTheRemainder`, with a divisor of 4 and a remainder carried in. -/
theorem witness_TickCarriesTheRemainder :
    let s := { at10 [0x8802] with leftover := 3, config := { Config.default with rateDivisor := 4 } }
    s.running = true ∧ (match s.tick 3 with | .next _ => true | _ => false) = true ∧ 1 ≤ s.config.rateDivisor := by decide

/-- `StorageReadWithoutMediumReportsError2`, Idle and Busy. -/
theorem witness_StorageReadWithoutMediumReportsError2 :
    [controller, { controller with transfer := some { transfer with block := none } }].all (fun c =>
      (storing c).storageAt 0 == some c && c.medium.isNone) = true := by decide

/-- Every statement about a basic instruction (`SetMovesOperandA` to `OrderConditionsSetSkipping`): operands that are not both
the stack slot, with one of them the stack slot, with a literal as b and with EX as b, in a state of canonical tables. -/
theorem witness_basic_operands :
    bothStack (.reg .b) (.reg .a) = false ∧ bothStack .stack .peek = false ∧ bothStack .sp .stack = false ∧
      bothStack (.lit 1) .stack = false ∧ bothStack .ex (.reg .a) = false ∧ delivery.tablesWf = true := by decide

/-- `AsrFillsWithTheSign`: counts on both sides of the bound of its clause about EX. -/
theorem witness_AsrFillsWithTheSign :
    (State.reset.valueA (.small 16)).toNat ≤ 16 ∧ ¬ (State.reset.valueA (.small 17)).toNat ≤ 16 := by decide

/-- `HwnStoresTheDeviceCount`. -/
theorem witness_HwnStoresTheDeviceCount :
    ({ delivery with devices := [sample, sample] } : State).tablesWf = true ∧
      ({ delivery with devices := [sample, sample] } : State).deviceCount ≤ 65535 := by decide

/-- `HwqShowsTheIdentity` and `HwiRunsTheDevice`, at the first and the last index. -/
theorem witness_HwqShowsTheIdentity :
    let s := { State.reset with devices := [sample, sample, sample] }
    s.tablesWf = true ∧ (s.deviceTable[(s.valueA (.small 0)).toNat]? = some 0 ∧ s.devices[0]? = some sample) ∧
      (s.deviceTable[(s.valueA (.small 2)).toNat]? = some 2 ∧ s.devices[2]? = some sample) := by decide

/-- `HwiRunsTheDevice`: the devices of its four clauses about a command, each the first of the table; the commands are free. -/
theorem witness_HwiRunsTheDevice :
    (let s := { State.reset with devices := [{ sample with kind := .rom [0x7f81, 0x1234] }] }
     s.deviceTable[(s.valueA (.small 0)).toNat]? = some 0 ∧ (s.devices[0]?.map Device.kind) = some (.rom [0x7f81, 0x1234])) ∧
    [controller, { controller with medium := some 4 },
      { controller with transfer := some { transfer with block := none } }].all (fun c =>
      (storing c).deviceTable[((storing c).valueA (.small 0)).toNat]? == some 0 && (storing c).storageAt 0 == some c) =
      true := by decide

/-- `OutOfRangeIndexIsANoOp`, at the first index past the table, with devices and without. -/
theorem witness_OutOfRangeIndexIsANoOp :
    ({ State.reset with devices := [sample, sample, sample] } : State).deviceCount ≤ (State.reset.valueA (.small 3)).toNat ∧
      State.reset.deviceCount ≤ (State.reset.valueA (.small 0)).toNat := by decide

/-- `SpecialNumbersAreParameters`: well-formed numbers, the defaults among them, and a word for each of its five clauses. -/
theorem witness_SpecialNumbersAreParameters :
    SpecialNumbers.default.wf = true ∧ otherNumbers.wf = true ∧
      [0x02c0#16, 0x0260#16, 0x0040#16, 0x0240#16, 0x0280#16].all (opcodeField · == 0) = true ∧
      bField 0x02c0#16 = otherNumbers.log ∧ bField 0x0260#16 = otherNumbers.brk ∧ bField 0x0040#16 = otherNumbers.hlt ∧
      bField 0x0240#16 ∈ SpecialNumbers.fixed ∧
      bField 0x0280#16 ∉ otherNumbers.log :: otherNumbers.brk :: otherNumbers.hlt :: SpecialNumbers.fixed := by
  decide +kernel

end Sys2Proof.Tests
end

section
/-! The memory family: what a write stores and marks (R63), what registering and unregistering a subscription do to the
counts, the flags and the records (R69, R70), and the three obligations about them. -/

namespace Sys2Proof.Machine

variable (s : State)

/-! ### Writes -/

/-- R39's `addr >> 4` is the region number the model divides out. -/
theorem toNat_shiftRight_four (addr : Word) : (addr >>> 4).toNat = regionOf addr := by
  simp [regionOf, Nat.shiftRight_eq_div_pow]

/-- R63: a write stores one word and marks one region. -/
theorem State.storesOnly_write (h : s.tablesWf = true) (addr v : Word) :
    StoresOnly s (s.write addr v) (fun x => if x = addr then some v else none) := by
  obtain ⟨hmem, hdirty, -⟩ := s.tablesWf_iff.mp h
  constructor
  case mem =>
    intro x
    rw [s.read_write hmem]
    split_ifs <;> rfl
  case dirty =>
    intro r
    have hstored : (∃ x, (if x = addr then some v else none).isSome = true ∧ regionOf x = r) ↔ regionOf addr = r := by
      simp
    rw [hstored, s.isDirty_write hdirty, Bool.or_eq_true, decide_eq_true_eq, or_comm, eq_comm (a := r)]

/-- Settles O23: the cell and its flag by `State.storesOnly_write`, the rest by the frame of `State.write`. -/
theorem writeThenReadGivesTheWord : Obligations.WriteThenReadGivesTheWord := by
  unfold Obligations.WriteThenReadGivesTheWord
  intro s addr v h
  have hstores := s.storesOnly_write h addr v
  have hregion : (s.write addr v).isDirty (regionOf addr) = true :=
    (hstores.dirty _).mpr (.inr ⟨addr, by simp, rfl⟩)
  exact ⟨hstores, toNat_shiftRight_four addr ▸ hregion, rfl⟩

/-! ### Counting up and down -/

theorem Subscription.lt_of_mem_regions (u : Subscription) : ∀ r ∈ u.regions, r < Config.regionCount :=
  fun r hr => Subscription.covers_lt ((u.mem_regions r).mp hr)

/-- R69: counting up marks the regions of the list and no other. -/
theorem State.isDirty_countUp (h : s.tablesWf = true) (rs : List Nat) (hr : ∀ r ∈ rs, r < Config.regionCount) (q : Nat) :
    (s.countUp rs).isDirty q = (s.isDirty q || decide (q ∈ rs)) := by
  induction rs generalizing s with
  | nil => simp [State.countUp]
  | cons r rs ih =>
    obtain ⟨hr0, hrs⟩ := List.forall_mem_cons.mp hr
    have hcount := s.setCount_tablesWf h hr0 (s.syncOf r + 1)
    obtain ⟨-, hdirty, -⟩ := (State.tablesWf_iff _).mp hcount
    have hsame : State.isDirty { s with syncCount := Store.update 0 s.syncCount r (s.syncOf r + 1) } q = s.isDirty q :=
      State.isDirty_congr rfl q
    rw [State.countUp, ih _ (State.markDirty_tablesWf _ hcount hr0) hrs, State.isDirty_markDirty _ hdirty, hsame]
    simp only [List.mem_cons, Bool.decide_or, Bool.or_assoc, Bool.or_left_comm]

/-- Counting up changes the counts and the flags only. -/
theorem State.countUp_frame (rs : List Nat) :
    s.countUp rs = { s with syncCount := (s.countUp rs).syncCount, dirty := (s.countUp rs).dirty } := by
  induction rs generalizing s with
  | nil => rfl
  | cons r rs ih => exact ih _

/-- Counting down changes the counts only. -/
theorem State.countDown_frame (rs : List Nat) :
    s.countDown rs = { s with syncCount := (s.countDown rs).syncCount } := by
  induction rs generalizing s with
  | nil => rfl
  | cons r rs ih => exact ih _

/-! ### Registering -/

section
variable {s} {k : Nat} {u : Subscription} (hu : s.subs[k]? = some u)
include hu

/-- R69: "double-registering … is a no-op". -/
theorem State.register_of_registered (hreg : u.registered = true) : s.register k = s := by
  simp [State.register, hu, hreg]

theorem State.register_of_not_registered (hreg : u.registered = false) :
    s.register k = (s.countUp u.regions).setRegistered k u true := by
  simp [State.register, hu, hreg]

/-- R69: each covered region has one subscriber more. -/
theorem State.syncOf_register (h : s.tablesWf = true) (hreg : u.registered = false) (r : Nat) :
    (s.register k).syncOf r = s.syncOf r + (if u.covers r then 1 else 0) := by
  rw [State.register_of_not_registered hu hreg, State.syncOf_congr (State.setRegistered_syncCount _ k u true),
    s.syncOf_countUp h _ u.lt_of_mem_regions, u.count_regions]

/-- R69: each covered region is dirty. -/
theorem State.isDirty_register (h : s.tablesWf = true) (hreg : u.registered = false) (r : Nat) :
    (s.register k).isDirty r = (s.isDirty r || u.covers r) := by
  rw [State.register_of_not_registered hu hreg, State.isDirty_congr (State.setRegistered_dirty _ k u true),
    s.isDirty_countUp h _ u.lt_of_mem_regions]
  simp

theorem State.register_subs (hreg : u.registered = false) :
    (s.register k).subs = s.subs.set k { u with registered := true } := by
  rw [State.register_of_not_registered hu hreg, State.setRegistered_subs, State.countUp_subs]

theorem State.register_frame (hreg : u.registered = false) :
    s.register k = { s with syncCount := (s.register k).syncCount, dirty := (s.register k).dirty,
                            subs := (s.register k).subs } := by
  rw [State.register_of_not_registered hu hreg, s.countUp_frame]
  rfl

/-! ### Unregistering -/

/-- R70: "double-unregister is idempotent". -/
theorem State.unregister_of_not_registered (hreg : u.registered = false) : s.unregister k = s := by
  simp [State.unregister, hu, hreg]

theorem State.unregister_of_registered (hreg : u.registered = true) :
    s.unregister k = (s.countDown u.regions).setRegistered k u false := by
  simp [State.unregister, hu, hreg]

/-- R70: each covered region has one subscriber less, and never fewer than 0. -/
theorem State.syncOf_unregister (h : s.tablesWf = true) (hreg : u.registered = true) (r : Nat) :
    (s.unregister k).syncOf r = s.syncOf r - (if u.covers r then 1 else 0) := by
  rw [State.unregister_of_registered hu hreg, State.syncOf_congr (State.setRegistered_syncCount _ k u false),
    s.syncOf_countDown h _ u.lt_of_mem_regions, u.count_regions]

theorem State.unregister_subs_of_registered (hreg : u.registered = true) :
    (s.unregister k).subs = s.subs.set k { u with registered := false } := by
  rw [State.unregister_of_registered hu hreg, State.setRegistered_subs, State.countDown_subs]

theorem State.unregister_frame (hreg : u.registered = true) :
    s.unregister k = { s with syncCount := (s.unregister k).syncCount, subs := (s.unregister k).subs } := by
  rw [State.unregister_of_registered hu hreg, s.countDown_frame]
  rfl

/-- R72: where the counts agree, a region that a registered record covers counts at least that record. -/
theorem State.syncOf_pos (hc : s.countsAgree) (hreg : u.registered = true) {r : Nat} (hr : u.covers r = true) :
    0 < s.syncOf r := by
  have hlive : u ∈ s.subs.filter (fun u => u.registered && u.covers r) :=
    List.mem_filter.mpr ⟨List.mem_of_getElem? hu, by simp [hreg, hr]⟩
  exact hc r ▸ List.length_pos_of_mem hlive

/-- R70, "returns to its prior value": unregistering takes back what registering counted, whatever the counts were. -/
theorem State.syncOf_unregister_register (h : s.tablesWf = true) (hreg : u.registered = false) (r : Nat) :
    ((s.register k).unregister k).syncOf r = s.syncOf r := by
  have hu' : (s.register k).subs[k]? = some { u with registered := true } := by
    rw [State.register_subs hu hreg, List.getElem?_set_self (List.getElem?_eq_some_iff.mp hu).1]
  rw [State.syncOf_unregister hu' (s.register_tablesWf h k) rfl, State.syncOf_register hu h hreg]
  exact Nat.add_sub_cancel _ _

end

theorem State.unregister_of_none {k : Nat} (hu : s.subs[k]? = none) : s.unregister k = s := by
  simp [State.unregister, hu]

/-- R70: a second unregistering of a record, or of none, changes nothing. -/
theorem State.unregister_unregister (k : Nat) : (s.unregister k).unregister k = s.unregister k := by
  cases hu : (s.unregister k).subs[k]? with
  | none => exact State.unregister_of_none _ hu
  | some u =>
    have hreg : u.registered = false := by
      rw [State.unregister_subs, Option.map_eq_some_iff] at hu
      obtain ⟨w, -, rfl⟩ := hu
      simp
    exact State.unregister_of_not_registered hu hreg

/-! ### The obligations about subscriptions -/

/-- Settles O25, by the two cases of `State.register` on a record. -/
theorem registerCountsCoveredRegions : Obligations.RegisterCountsCoveredRegions := by
  unfold Obligations.RegisterCountsCoveredRegions
  intro s k u h hu
  refine ⟨State.register_of_registered hu, fun hreg => ?_⟩
  exact ⟨State.syncOf_register hu h hreg, State.isDirty_register hu h hreg, State.register_subs hu hreg,
    State.register_frame hu hreg⟩

/-- Settles O26. The natural subtraction is exact: for a record of the registry by the counts' agreement, for a record
that register_sync has just made by the one it has just added. -/
theorem unregisterUndoesRegisterSync : Obligations.UnregisterUndoesRegisterSync := by
  unfold Obligations.UnregisterUndoesRegisterSync
  constructor
  · intro s k u h hc hu
    refine ⟨State.unregister_of_not_registered hu, fun hreg => ⟨fun r => ?_,
      State.unregister_subs_of_registered hu hreg, State.unregister_frame hu hreg⟩⟩
    have hcounted : (if u.covers r then 1 else 0) ≤ s.syncOf r := by
      split_ifs with hr
      · exact State.syncOf_pos hu hc hreg hr
      · exact Nat.zero_le _
    rw [State.syncOf_unregister hu h hreg, Nat.sub_add_cancel hcounted]
  · intro s owner base length h
    refine ⟨fun r => ?_, State.unregister_unregister _ _⟩
    exact State.syncOf_unregister_register (s := { s with subs := s.subs ++ [⟨owner, base, length, false⟩] })
      List.getElem?_concat_length h rfl r

end Sys2Proof.Machine
end

section
/-! The encoding family: what the decoder gives for a selector and for an opcode, in extra words (R93, R94), the fields of
a word as quotients and remainders (R90), and the length of a decoded instruction (R92). -/

namespace Sys2Proof

/-! ### Extra words of what the decoder gives -/

/-- R92, by the selector's bits, which are what `decodeOperand` looks at. -/
theorem takesExtra_eq_bits (s : BitVec 6) :
    takesExtra s = (!s.getLsbD 5 && s.getLsbD 4 &&
      (!s.getLsbD 3 || s.getLsbD 1 && !s.getLsbD 0 || s.getLsbD 2 && s.getLsbD 1)) := by
  revert s
  decide

/-- R92, R93: a selector's operand has the word offered to it exactly when the selector takes one. -/
theorem decodeOperand_extra (s : BitVec 6) (nw : Word) :
    (decodeOperand s nw).extra = if takesExtra s then [nw] else [] := by
  rw [takesExtra_eq_bits]
  unfold decodeOperand
  split <;> simp only [Operand.extra, *] <;> rfl

@[simp] theorem decodeOperand_extra_length (s : BitVec 6) (nw : Word) :
    (decodeOperand s nw).extra.length = if takesExtra s then 1 else 0 := by
  rw [decodeOperand_extra]
  split <;> rfl

/-- R91: a special instruction's extra words are operand a's. -/
@[simp] theorem decodeSpecial_extraWords (f : BitVec 5) (a : Operand) : (decodeSpecial f a).extraWords = a.extra := by
  unfold decodeSpecial
  split <;> rfl

/-- R91: opcode 0 opens the special set. -/
@[simp] theorem decodeOpcode_zero (f : BitVec 5) (b a : Operand) : decodeOpcode 0#5 f b a = decodeSpecial f a := rfl

/-- The opcode whose row of `decodeOpcode` is the special set. -/
theorem eq_zero_of_bits : ∀ o : BitVec 5, o.getLsbD 4 = false → o.getLsbD 3 = false → o.getLsbD 2 = false →
    o.getLsbD 1 = false → o.getLsbD 0 = false → o = 0#5 := by
  decide

/-- R90, R104: a basic instruction's extra words are operand a's, then operand b's. -/
theorem decodeOpcode_extraWords_of_ne_zero {o : BitVec 5} (ho : o ≠ 0#5) (f : BitVec 5) (b a : Operand) :
    (decodeOpcode o f b a).extraWords = a.extra ++ b.extra := by
  unfold decodeOpcode
  split
  case h_1 h4 h3 h2 h1 h0 =>
    exact absurd (eq_zero_of_bits o h4 h3 h2 h1 h0) ho
  all_goals rfl

/-- R92: the words of a decoded instruction are as many as its word alone says. -/
theorem length_encode_decodeAt (numbers : SpecialNumbers) (w n1 n2 : Word) :
    (encode numbers (decodeAt numbers w n1 n2)).length = lengthOfWord w := by
  unfold encode decodeAt lengthOfWord
  by_cases ho : opcodeField w = 0#5
  · simp [ho, Nat.add_comm]
  · simp [decodeOpcode_extraWords_of_ne_zero ho, ho, Nat.add_comm 1, Nat.add_right_comm]

/-! ### The fields as numbers -/

theorem opcodeField_toNat (w : Word) : (opcodeField w).toNat = w.toNat % 32 := by
  simp [opcodeField]

/-- R91: the special set by the word's number. -/
theorem opcodeField_eq_zero_iff (w : Word) : opcodeField w = 0#5 ↔ w.toNat % 32 = 0 := by
  rw [← opcodeField_toNat, ← BitVec.toNat_inj]
  rfl

theorem bSelector_bField_toNat (w : Word) : (bSelector (bField w)).toNat = w.toNat / 32 % 32 := by
  have hlt : w.toNat / 32 % 32 < 64 := by omega
  simp [bSelector, bField, Nat.shiftRight_eq_div_pow, Nat.mod_eq_of_lt hlt]

theorem aField_toNat (w : Word) : (aField w).toNat = w.toNat / 1024 := by
  have hlt : w.toNat / 1024 < 64 := by omega
  simp [aField, Nat.shiftRight_eq_div_pow, Nat.mod_eq_of_lt hlt]

/-- R92 `extra(s)` of a selector's number. -/
def extraOfNumber (s : Nat) : Nat := if (0x10 ≤ s ∧ s ≤ 0x17) ∨ s = 0x1a ∨ s = 0x1e ∨ s = 0x1f then 1 else 0

theorem extraOfNumber_toNat (s : BitVec 6) : extraOfNumber s.toNat = if takesExtra s then 1 else 0 := by
  simp [extraOfNumber, takesExtra, BitVec.le_def, ← BitVec.toNat_inj, or_assoc]

/-- R92: the length by the word's quotients and remainders. -/
theorem lengthOfWord_eq_numbers (w : Word) :
    lengthOfWord w = 1 + extraOfNumber (w.toNat / 1024) +
      (if w.toNat % 32 ≠ 0 then extraOfNumber (w.toNat / 32 % 32) else 0) := by
  rw [← aField_toNat, ← bSelector_bField_toNat, extraOfNumber_toNat, extraOfNumber_toNat]
  by_cases ho : opcodeField w = 0#5 <;> simp [lengthOfWord, ho, ← opcodeField_eq_zero_iff]

/-- R92: operand b's field of a special instruction is its opcode and calls for no word. -/
theorem lengthOfWord_le_two_of_special {w : Word} (ho : opcodeField w = 0#5) : lengthOfWord w ≤ 2 := by
  simp only [lengthOfWord, ho]
  split <;> simp

/-- Settles O4: the decoded instruction has `lengthOfWord w` words, whatever follows the word. -/
theorem lengthIsAFunctionOfTheWord : Obligations.LengthIsAFunctionOfTheWord := by
  unfold Obligations.LengthIsAFunctionOfTheWord
  intro numbers w n1 n2 extra n
  have hn : n = lengthOfWord w := length_encode_decodeAt numbers w n1 n2
  rw [hn]
  refine ⟨lengthOfWord_eq_numbers w, one_le_lengthOfWord w, lengthOfWord_le w, fun h => ?_⟩
  exact lengthOfWord_le_two_of_special ((opcodeField_eq_zero_iff w).mpr h)

end Sys2Proof
end

section
/-! The arithmetic family: the two words of a 32-bit result (R11, R164, R165), ADD, SUB, MUL and MLI's ALU functions in
the arithmetic of words, and the four obligations about them. -/

namespace Sys2Proof.Machine

/-! ### Words of an integer -/

/-- R11: narrowing an integer keeps the low word of its 32-bit two's-complement form. -/
theorem extractLsb'_low_ofInt (n : Int) : (BitVec.ofInt 32 n).extractLsb' 0 16 = trunc16 n := by
  apply BitVec.eq_of_toNat_eq
  simp only [trunc16, BitVec.extractLsb'_toNat, BitVec.toNat_ofInt, Nat.shiftRight_zero]
  omega

/-- R165: the high word of a 32-bit two's-complement form is the quotient by 65536, rounded down. -/
theorem extractLsb'_high_ofInt (n : Int) : (BitVec.ofInt 32 n).extractLsb' 16 16 = trunc16 (n / 65536) := by
  apply BitVec.eq_of_toNat_eq
  simp only [trunc16, BitVec.extractLsb'_toNat, BitVec.toNat_ofInt, Nat.shiftRight_eq_div_pow]
  omega

theorem ofInt_toNat_eq_setWidth (v : Word) : BitVec.ofInt 32 v.toNat = v.setWidth 32 := by
  rw [BitVec.ofInt_natCast, BitVec.ofNat_toNat]

theorem ofInt_signed_eq_signExtend (v : Word) : BitVec.ofInt 32 (signed v) = v.signExtend 32 := rfl

/-! ### What the ALU functions compute -/

/-- R162. -/
theorem aluAdd_eq (vb va : Word) :
    aluAdd vb va = .withEx (vb + va) (if vb.toNat + va.toNat > 0xFFFF then 1 else 0) := by
  have hsum : trunc16 (vb.toNat + va.toNat : Nat) = vb + va := by
    rw [trunc16, BitVec.ofInt_natCast, BitVec.ofNat_add, BitVec.ofNat_toNat, BitVec.ofNat_toNat,
      BitVec.setWidth_eq, BitVec.setWidth_eq]
  rw [aluAdd, hsum]

/-- R163: a borrow is a negative difference. -/
theorem aluSub_eq (vb va : Word) :
    aluSub vb va = .withEx (vb - va) (if vb.toNat < va.toNat then 0xFFFF else 0) := by
  have hdifference : trunc16 (vb.toNat - va.toNat) = vb - va := by
    apply BitVec.eq_of_toNat_eq
    rw [trunc16, BitVec.toNat_ofInt, BitVec.toNat_sub]
    omega
  simp only [aluSub, hdifference, sub_neg, Nat.cast_lt]

/-- R164: the product is taken of the words widened with zeros. -/
theorem aluMul_eq (vb va : Word) :
    aluMul vb va = .withEx ((vb.setWidth 32 * va.setWidth 32).extractLsb' 0 16)
      ((vb.setWidth 32 * va.setWidth 32).extractLsb' 16 16) := by
  have hproduct : vb.setWidth 32 * va.setWidth 32 = BitVec.ofInt 32 (vb.toNat * va.toNat) := by
    rw [BitVec.ofInt_mul, ofInt_toNat_eq_setWidth, ofInt_toNat_eq_setWidth]
  rw [hproduct, extractLsb'_low_ofInt, extractLsb'_high_ofInt]
  simp only [aluMul, Int.natCast_mul, Int.natCast_ediv, Nat.cast_ofNat]

/-- R165: the product is taken of the words widened with their signs. -/
theorem aluMli_eq (vb va : Word) :
    aluMli vb va = .withEx ((vb.signExtend 32 * va.signExtend 32).extractLsb' 0 16)
      ((vb.signExtend 32 * va.signExtend 32).extractLsb' 16 16) := by
  have hproduct : vb.signExtend 32 * va.signExtend 32 = BitVec.ofInt 32 (signed vb * signed va) := by
    rw [BitVec.ofInt_mul, ofInt_signed_eq_signExtend, ofInt_signed_eq_signExtend]
  rw [hproduct, extractLsb'_low_ofInt, extractLsb'_high_ofInt, aluMli]

/-! ### The instructions -/

/-- R139: the whole next state of an opcode that computes a result and a new EX. -/
theorem runBasic_effect_withEx {op : Word → Word → AluOut} {b a : Operand} {s : State} {v e : Word} (cost : Nat)
    (hb : bothStack b a = false) (hw : s.tablesWf = true) (hop : op (s.valueB b a) (s.valueA a) = .withEx v e) :
    ∃ t, runBasic op id cost b a s = .next t ∧ BasicEffect s t b a (some v) (some e) s.skipping cost := by
  have heffect := runBasic_effect op cost hb hw
  rwa [hop] at heffect

/-- Settles O35: ADD is the basic template over `aluAdd`. -/
theorem addWritesSumAndCarry : Obligations.AddWritesSumAndCarry := by
  unfold Obligations.AddWritesSumAndCarry
  exact ⟨fun _ _ => rfl, rfl, fun _ _ s hb hw =>
    runBasic_effect_withEx s.config.waitCost.add hb hw (aluAdd_eq _ _)⟩

/-- Settles O36: SUB is the basic template over `aluSub`. -/
theorem subWritesDifferenceAndBorrow : Obligations.SubWritesDifferenceAndBorrow := by
  unfold Obligations.SubWritesDifferenceAndBorrow
  exact ⟨fun _ _ => rfl, rfl, fun _ _ s hb hw =>
    runBasic_effect_withEx s.config.waitCost.sub hb hw (aluSub_eq _ _)⟩

/-- Settles O37: MUL is the basic template over `aluMul`. -/
theorem mulWritesUnsignedProduct : Obligations.MulWritesUnsignedProduct := by
  unfold Obligations.MulWritesUnsignedProduct
  exact ⟨fun _ _ => rfl, rfl, fun _ _ s hb hw =>
    runBasic_effect_withEx s.config.waitCost.mul hb hw (aluMul_eq _ _)⟩

/-- Settles O38: MLI is the basic template over `aluMli`. -/
theorem mliWritesSignedProduct : Obligations.MliWritesSignedProduct := by
  unfold Obligations.MliWritesSignedProduct
  exact ⟨fun _ _ => rfl, rfl, fun _ _ s hb hw =>
    runBasic_effect_withEx s.config.waitCost.mli hb hw (aluMli_eq _ _)⟩

end Sys2Proof.Machine
end

section
/-! The call and interrupt-control family (spec/44_special_control.md): the whole next state of JSR (R231), and the
obligations about JSR and IAG. -/

namespace Sys2Proof.Machine

/-- R135, R367: `waitAfter` is the charge the special template adds. -/
theorem waitAfter_eq_charge (cost : Nat) (a : Operand) (s : State) :
    waitAfter cost a s = s.wait + (cost + s.extraCost a) := Nat.add_assoc ..

/-- R231: JSR is the push of the return address in the state after operand a is resolved, then the jump to the value read
before it, then the charge of R135. -/
theorem exec_jsr (a : Operand) (s : State) :
    exec (.jsr a) s = .next { { s with sp := spAfterPop a s.sp }.push s.pc with
      pc := s.valueA a, wait := waitAfter s.config.waitCost.jsr a s } := by
  rw [waitAfter_eq_charge]
  exact runSpecial_eq (fun va t => { t.push t.pc with pc := va }) s.config.waitCost.jsr a s fun _ _ => rfl

/-- Settles O49: the next state of `exec_jsr`, whose memory and dirty flags are those of the push alone. -/
theorem jsrPushesAndJumps : Obligations.JsrPushesAndJumps := by
  unfold Obligations.JsrPushesAndJumps
  refine ⟨fun _ => rfl, rfl, fun a s hw => ⟨_, exec_jsr a s, rfl, ?_⟩⟩
  have hpush := State.push_stores (s := { s with sp := spAfterPop a s.sp }) hw s.pc
  exact ⟨hpush.mem, hpush.dirty⟩

/-- Settles O51: IAG is the writing template of R230 for the value `ia`. -/
theorem iagStoresIa : Obligations.IagStoresIa := by
  unfold Obligations.IagStoresIa
  exact ⟨fun _ => rfl, rfl, fun a s hw => runSpecialWrite_effect s.ia s.config.waitCost.iag a hw⟩

end Sys2Proof.Machine
end

section
/-! The device bus family (spec/45_special_hardware.md): HWQ and HWI where the index names no device (R254). -/

namespace Sys2Proof.Machine

/-- R230: where the effect of a special instruction leaves the state after operand a's resolution as it is, the whole next
state is that resolution and the charge. -/
theorem runSpecial_of_effect_eq {op : Word → State → State} (cost : Nat) {a : Operand} {s : State}
    (hop : ∀ v t, (op v t).config = t.config)
    (hnoop : op (s.valueA a) { s with sp := spAfterPop a s.sp } = { s with sp := spAfterPop a s.sp }) :
    runSpecial op cost a s = .next { s with sp := spAfterPop a s.sp, wait := waitAfter cost a s } := by
  rw [runSpecial_eq op cost a s hop, hnoop, waitAfter_eq_charge, State.addWait]

/-- R254: HWQ shows no identity where the index is not below the device count. -/
theorem State.queryDevice_of_deviceCount_le (s : State) {index : Word} (h : s.deviceCount ≤ index.toNat) :
    s.queryDevice index = s := by
  obtain ⟨k, d, hat, -, -⟩ | ⟨-, hsame⟩ := s.queryDevice_cases index
  · simp [s.deviceAt_eq_none h] at hat
  · exact hsame

/-- R254: HWI runs no handler where the index is not below the device count. -/
theorem State.interruptDevice_of_deviceCount_le (s : State) {index : Word} (h : s.deviceCount ≤ index.toNat) :
    s.interruptDevice index = s := by
  obtain ⟨k, hat, -⟩ | ⟨-, hsame⟩ := s.interruptDevice_cases index
  · simp [s.deviceAt_eq_none h] at hat
  · exact hsame

/-- Settles O57: operand a's resolution attaches and detaches no device, so the index is past the table there too, and
both effects leave the resolved state as it is. -/
theorem outOfRangeIndexIsANoOp : Obligations.OutOfRangeIndexIsANoOp := by
  unfold Obligations.OutOfRangeIndexIsANoOp
  intro a s hpast
  have hresolved : ({ s with sp := spAfterPop a s.sp } : State).deviceCount ≤ (s.valueA a).toNat := hpast
  constructor
  · exact runSpecial_of_effect_eq s.config.waitCost.hwq (fun v t => t.queryDevice_config v)
      (State.queryDevice_of_deviceCount_le _ hresolved)
  · exact runSpecial_of_effect_eq s.config.waitCost.hwi (fun v t => t.interruptDevice_config v)
      (State.interruptDevice_of_deviceCount_le _ hresolved)

end Sys2Proof.Machine
end

section
/-! The exceptions family (spec/60_exceptions.md): `Raise` queues a message or drops it without trace (R286). -/

namespace Sys2Proof.Machine

/-- R286: the queue is the one field that `Raise` changes where it accepts the message. -/
theorem State.raise_of_accepts {s : State} (hia : s.ia ≠ 0) (hroom : s.iq.length < Config.queueCapacity) (m : Word) :
    s.raise m = { s with iq := s.iq ++ [m] } :=
  if_pos ⟨hia, hroom⟩

/-- R286: the silent drop where interrupts have no handler. -/
theorem State.raise_of_ia_eq_zero {s : State} (hia : s.ia = 0) (m : Word) : s.raise m = s :=
  if_neg fun haccepts => haccepts.left hia

/-- R286: the silent drop where the queue is full. -/
theorem State.raise_of_queue_full {s : State} (hfull : Config.queueCapacity ≤ s.iq.length) (m : Word) : s.raise m = s :=
  if_neg fun haccepts => hfull.not_gt haccepts.right

/-- Settles O27: the accepted message, and one case for each of the two reasons to drop it. -/
theorem raiseQueuesOrDrops : Obligations.RaiseQueuesOrDrops := by
  unfold Obligations.RaiseQueuesOrDrops
  intro s m
  constructor
  · rintro ⟨hia, hroom⟩
    exact State.raise_of_accepts hia hroom m
  · rintro (hia | hfull)
    · exact State.raise_of_ia_eq_zero hia m
    · exact State.raise_of_queue_full hfull m

end Sys2Proof.Machine
end

section
/-! The round trips of the encoding family (spec/30_encoding.md): an instruction and the fields of its format determine
each other, as do an operand and its selector with its extra word. -/

namespace Sys2Proof

/-! ### Selectors and operands -/

/-- A field is one of its finitely many numbers, so that a statement about a field can be proved number by number. -/
theorem exists_lt_eq_ofNat {w : Nat} (f : BitVec w) : ∃ k, k < 2 ^ w ∧ f = BitVec.ofNat w k :=
  ⟨f.toNat, f.isLt, by simp⟩

/-- R93, R95: the operand a selector names has that selector. -/
@[simp] theorem selector_decodeOperand (s : BitVec 6) (nw : Word) : (decodeOperand s nw).selector = s := by
  obtain ⟨k, hk, rfl⟩ := exists_lt_eq_ofNat s
  interval_cases k <;> rfl

/-- R93, R95: every selector of operand a names an operand kind of its position. -/
theorem wfA_decodeOperand (s : BitVec 6) (nw : Word) : (decodeOperand s nw).wfA = true := by
  obtain ⟨k, hk, rfl⟩ := exists_lt_eq_ofNat s
  interval_cases k <;> rfl

/-- R95: five bits name no packed literal. -/
theorem wfB_decodeOperand (f : BitVec 5) (nw : Word) : (decodeOperand (bSelector f) nw).wfB = true := by
  obtain ⟨k, hk, rfl⟩ := exists_lt_eq_ofNat f
  interval_cases k <;> rfl

@[simp] theorem setWidth_bSelector (f : BitVec 5) : (bSelector f).setWidth 5 = f := by
  simp [bSelector]

/-- R104: where an operand's extra word, if it has one, stands at the front of the words offered, the operand is read
back. -/
theorem decodeOperand_selector_append {o : Operand} (h : o.wfA = true) (ws : List Word) :
    decodeOperand o.selector ((o.extra ++ ws).getD 0 0) = o := by
  have hfront : (o.extra ++ ws).getD 0 0 = o.extra.headD (ws.getD 0 0) := by cases o.extra <;> rfl
  rw [hfront, decodeOperand_selector h]

/-- R92, R94: a selector takes as many extra words as its operand has. -/
theorem extra_length_of_wfA {o : Operand} (h : o.wfA = true) :
    o.extra.length = if takesExtra o.selector then 1 else 0 := by
  have := decodeOperand_extra_length o.selector (o.extra.headD 0)
  rwa [decodeOperand_selector h] at this

/-! ### Instructions and fields -/

theorem decodeOpcode_of_fields {i : Instr} {o : BitVec 5} {b a : Operand} (h : i.fields = .basic o b a) (f : BitVec 5) :
    decodeOpcode o f b a = i := by
  cases i <;> cases h <;> rfl

theorem opcode_ne_zero_of_fields {i : Instr} {o : BitVec 5} {b a : Operand} (h : i.fields = .basic o b a) : o ≠ 0#5 := by
  cases i <;> cases h <;> decide

theorem decodeSpecial_of_fields {i : Instr} {so : BitVec 5} {a : Operand} (h : i.fields = .special so a) :
    decodeSpecial so a = i := by
  cases i <;> cases h <;> rfl

/-- R96, R268: the row of a basic opcode has its number. -/
theorem fields_decodeOpcode {o : BitVec 5} (ho : o ≠ 0#5) (f : BitVec 5) (b a : Operand) :
    (decodeOpcode o f b a).fields = .basic o b a := by
  obtain ⟨k, hk, rfl⟩ := exists_lt_eq_ofNat o
  interval_cases k
  · exact absurd rfl ho
  all_goals rfl

/-- R97, R269: the row of a special opcode has its number. -/
@[simp] theorem fields_decodeSpecial (so : BitVec 5) (a : Operand) : (decodeSpecial so a).fields = .special so a := by
  obtain ⟨k, hk, rfl⟩ := exists_lt_eq_ofNat so
  interval_cases k <;> rfl

/-- The operands of an instruction are those of its fields. -/
def Fields.operands : Fields → Operands
  | .basic _ b a => .basic b a
  | .special _ a => .special a

theorem operands_eq_fields_operands (i : Instr) : i.operands = i.fields.operands := by cases i <;> rfl

/-- R90: a word is its three fields. -/
theorem fields_append (w : Word) : aField w ++ bField w ++ opcodeField w = w := by
  apply BitVec.eq_of_toNat_eq
  have ha := aField_toNat w
  have ho := opcodeField_toNat w
  have hb : (bField w).toNat = w.toNat / 32 % 32 := by
    simp [bField, Nat.shiftRight_eq_div_pow]
  simp only [BitVec.toNat_append, ha, ho, hb, Nat.shiftLeft_eq]
  rw [← Nat.shiftLeft_eq, ← Nat.shiftLeft_add_eq_or_of_lt (by omega), ← Nat.shiftLeft_eq,
    ← Nat.shiftLeft_add_eq_or_of_lt (by omega), Nat.shiftLeft_eq, Nat.shiftLeft_eq]
  omega

/-! ### Decoding what was encoded -/

/-- R104: decoding does not look past the words the length rule counts. -/
theorem decode_cons (numbers : SpecialNumbers) (w : Word) {extra rest : List Word}
    (hlength : lengthOfWord w = 1 + extra.length) :
    decode numbers (w :: (extra ++ rest)) =
      .ok (decodeAt numbers w ((extra ++ rest).getD 0 0) ((extra ++ rest).getD 1 0), rest) := by
  have hlong : ¬ (extra ++ rest).length + 1 < lengthOfWord w := by
    rw [hlength, List.length_append]
    omega
  rw [decode, if_neg hlong, hlength, Nat.add_sub_cancel_left, List.drop_left]

/-- R104: after operand a's extra word, if it has one, stands operand b's. -/
theorem getD_after_extra {o : Operand} (h : o.wfA = true) (ws : List Word) :
    (if takesExtra o.selector then (o.extra ++ ws).getD 1 0 else (o.extra ++ ws).getD 0 0) = ws.getD 0 0 := by
  have hlength := extra_length_of_wfA h
  split_ifs at hlength ⊢
  · obtain ⟨nw, he⟩ := List.length_eq_one_iff.mp hlength
    rw [he]
    rfl
  · rw [List.length_eq_zero_iff.mp hlength]
    rfl

theorem decode_encode_basic (numbers : SpecialNumbers) {i : Instr} {o : BitVec 5} {b a : Operand}
    (hf : i.fields = .basic o b a) (hb : b.wfB = true) (ha : a.wfA = true) (rest : List Word) :
    decode numbers (encode numbers i ++ rest) = .ok (i, rest) := by
  have hword : i.word numbers = a.selector ++ b.selector.setWidth 5 ++ o := by simp only [Instr.word, hf]
  have hextra : i.extraWords = a.extra ++ b.extra := by simp only [Instr.extraWords, hf]
  have ho := opcode_ne_zero_of_fields hf
  have hbA := Operand.wfA_of_wfB hb
  have hlength : lengthOfWord (i.word numbers) = 1 + (a.extra ++ b.extra).length := by
    simp [hword, lengthOfWord, aField_append, bField_append, opcodeField_append, bSelector_selector hb, ho,
      extra_length_of_wfA ha, extra_length_of_wfA hbA, Nat.add_assoc]
  rw [encode, hextra, List.cons_append, decode_cons numbers _ hlength, decodeAt, hword, aField_append, bField_append,
    opcodeField_append, bSelector_selector hb, List.append_assoc, getD_after_extra ha,
    decodeOperand_selector_append ha, decodeOperand_selector_append hbA, decodeOpcode_of_fields hf]

theorem decode_encode_special (numbers : SpecialNumbers) {i : Instr} {so : BitVec 5} {a : Operand}
    (hf : i.fields = .special so a) (ha : a.wfA = true) (rest : List Word) :
    decode numbers (encode numbers i ++ rest) = .ok (i, rest) := by
  have hword : i.word numbers = a.selector ++ numbers.numberOf so ++ 0#5 := by simp only [Instr.word, hf]
  have hextra : i.extraWords = a.extra := by simp only [Instr.extraWords, hf]
  have hlength : lengthOfWord (i.word numbers) = 1 + a.extra.length := by
    simp [hword, lengthOfWord, aField_append, opcodeField_append, extra_length_of_wfA ha]
  rw [encode, hextra, List.cons_append, decode_cons numbers _ hlength, decodeAt, hword, aField_append, bField_append,
    opcodeField_append, decodeOperand_selector_append ha, SpecialNumbers.rowOf_numberOf, decodeOpcode_zero,
    decodeSpecial_of_fields hf]

/-- Settles O1, by the two formats. -/
theorem decodeOfEncodeIsTheInstruction : Obligations.DecodeOfEncodeIsTheInstruction := by
  unfold Obligations.DecodeOfEncodeIsTheInstruction
  intro numbers i rest hwf
  rw [Instr.wf, operands_eq_fields_operands] at hwf
  cases hf : i.fields with
  | basic o b a =>
    simp only [hf, Fields.operands, Operands.wf, Bool.and_eq_true] at hwf
    exact decode_encode_basic numbers hf hwf.1 hwf.2 rest
  | special so a =>
    simp only [hf, Fields.operands, Operands.wf] at hwf
    exact decode_encode_special numbers hf hwf rest

/-! ### Encoding what was decoded -/

/-- R90, R91: the fields of the instruction at a word. -/
theorem fields_decodeAt (numbers : SpecialNumbers) (w n1 n2 : Word) :
    (decodeAt numbers w n1 n2).fields =
      if opcodeField w = 0#5 then .special (numbers.rowOf (bField w)) (decodeOperand (aField w) n1)
      else .basic (opcodeField w)
        (decodeOperand (bSelector (bField w)) (if takesExtra (aField w) then n2 else n1))
        (decodeOperand (aField w) n1) := by
  unfold decodeAt
  by_cases ho : opcodeField w = 0#5
  · rw [if_pos ho, ho, decodeOpcode_zero, fields_decodeSpecial]
  · rw [if_neg ho, fields_decodeOpcode ho]

/-- R105: the word of the instruction at a word. -/
theorem word_decodeAt (numbers : SpecialNumbers) (w n1 n2 : Word) : (decodeAt numbers w n1 n2).word numbers = w := by
  conv_rhs => rw [← fields_append w]
  rw [Instr.word, fields_decodeAt]
  split_ifs with ho <;> simp [ho]

/-- R104: the extra words of the instruction at a word. -/
theorem extraWords_decodeAt (numbers : SpecialNumbers) (w n1 n2 : Word) :
    (decodeAt numbers w n1 n2).extraWords = [n1, n2].take (lengthOfWord w - 1) := by
  rw [Instr.extraWords, fields_decodeAt, lengthOfWord]
  by_cases ho : opcodeField w = 0#5 <;> cases ha : takesExtra (aField w) <;>
    cases hb : takesExtra (bSelector (bField w)) <;> simp [ho, ha, hb, decodeOperand_extra]

/-- Settles O2: the word by its three fields, the extra words by what its selectors call for. -/
theorem encodeOfDecodeIsTheWords : Obligations.EncodeOfDecodeIsTheWords := by
  unfold Obligations.EncodeOfDecodeIsTheWords
  intro numbers w n1 n2
  obtain ⟨k, hk⟩ := Nat.exists_eq_add_of_le' (one_le_lengthOfWord w)
  rw [encode, word_decodeAt, extraWords_decodeAt, hk]
  rfl

/-- Settles O3: both operand positions, by their selectors. -/
theorem decodedInstructionIsWellFormed : Obligations.DecodedInstructionIsWellFormed := by
  unfold Obligations.DecodedInstructionIsWellFormed
  intro numbers w n1 n2
  rw [Instr.wf, operands_eq_fields_operands, fields_decodeAt]
  by_cases ho : opcodeField w = 0#5
  · rw [if_pos ho]
    exact wfA_decodeOperand _ _
  · rw [if_neg ho]
    exact Bool.and_eq_true_iff.mpr ⟨wfB_decodeOperand _ _, wfA_decodeOperand _ _⟩

/-- Settles O5, word by word. -/
theorem specWordsDecode : Obligations.SpecWordsDecode := by
  unfold Obligations.SpecWordsDecode
  exact ⟨rfl, rfl, rfl, rfl, rfl, rfl, rfl, rfl, rfl, rfl⟩

/-! ### The three numbers that are parameters -/

theorem swapNumbers_left (x y : BitVec 5) : swapNumbers x y x = y := by simp [swapNumbers]

theorem swapNumbers_of_ne {x y f : BitVec 5} (hx : f ≠ x) (hy : f ≠ y) : swapNumbers x y f = f := by
  simp [swapNumbers, hx, hy]

theorem swapNumbers_inj {x y f g : BitVec 5} : swapNumbers x y f = swapNumbers x y g ↔ f = g :=
  ⟨fun h => by simpa using congrArg (swapNumbers x y) h, fun h => h ▸ rfl⟩

/-- R97: two numbers with one row are one number. -/
theorem SpecialNumbers.rowOf_inj (n : SpecialNumbers) {f g : BitVec 5} : n.rowOf f = n.rowOf g ↔ f = g :=
  ⟨fun h => by simpa using congrArg n.numberOf h, fun h => h ▸ rfl⟩

/-- R97: the numbers of the nine instructions that are no parameters are none of the parameters' defaults. -/
theorem SpecialNumbers.ne_of_mem_fixed {f : BitVec 5} (h : f ∈ SpecialNumbers.fixed) :
    f ≠ 0x13#5 ∧ f ≠ 0x14#5 ∧ f ≠ 0x15#5 := by
  revert f
  decide

theorem SpecialNumbers.wf_iff (n : SpecialNumbers) : n.wf = true ↔
    n.log ≠ n.brk ∧ n.log ≠ n.hlt ∧ n.brk ≠ n.hlt ∧
      n.log ∉ SpecialNumbers.fixed ∧ n.brk ∉ SpecialNumbers.fixed ∧ n.hlt ∉ SpecialNumbers.fixed := by
  simp [SpecialNumbers.wf, and_assoc]

section
variable {n : SpecialNumbers} (hwf : n.wf = true)
include hwf

/-- The first exchange puts `OP_LOG` in row 0x13, and the two later ones leave that row alone. -/
theorem SpecialNumbers.rowOf_log : n.rowOf n.log = 0x13#5 := by
  obtain ⟨hlb, hlh, -, -, -, -⟩ := n.wf_iff.mp hwf
  have hlog := swapNumbers_left n.log 0x13#5
  have hb : 0x13#5 ≠ n.brkAfterLog := fun h => hlb (swapNumbers_inj.mp (hlog.trans h))
  have h2 : swapNumbers n.brkAfterLog 0x14#5 0x13#5 = 0x13#5 := swapNumbers_of_ne hb (by decide)
  have hh : 0x13#5 ≠ n.hltAfterBrk := fun h =>
    hlh (swapNumbers_inj.mp (hlog.trans (swapNumbers_inj.mp (h2.trans h))))
  rw [SpecialNumbers.rowOf, hlog, h2, swapNumbers_of_ne hh (by decide)]

/-- The second exchange puts `OP_BRK` in row 0x14, and the last one leaves that row alone. -/
theorem SpecialNumbers.rowOf_brk : n.rowOf n.brk = 0x14#5 := by
  obtain ⟨-, -, hbh, -, -, -⟩ := n.wf_iff.mp hwf
  have h2 : swapNumbers n.brkAfterLog 0x14#5 (swapNumbers n.log 0x13#5 n.brk) = 0x14#5 := swapNumbers_left _ _
  have hh : 0x14#5 ≠ n.hltAfterBrk := fun h => hbh (swapNumbers_inj.mp (swapNumbers_inj.mp (h2.trans h)))
  rw [SpecialNumbers.rowOf, h2, swapNumbers_of_ne hh (by decide)]

omit hwf in
theorem SpecialNumbers.rowOf_hlt : n.rowOf n.hlt = 0x15#5 := swapNumbers_left _ _

/-- R97: no exchange moves one of the nine fixed numbers. -/
theorem SpecialNumbers.rowOf_of_mem_fixed {f : BitVec 5} (h : f ∈ SpecialNumbers.fixed) : n.rowOf f = f := by
  obtain ⟨-, -, -, hl, hb, hh⟩ := n.wf_iff.mp hwf
  obtain ⟨h13, h14, h15⟩ := SpecialNumbers.ne_of_mem_fixed h
  have h1 : swapNumbers n.log 0x13#5 f = f := swapNumbers_of_ne (fun e => hl (e ▸ h)) h13
  have hb' : f ≠ n.brkAfterLog := fun e => hb (swapNumbers_inj.mp (h1.trans e) ▸ h)
  have h2 : swapNumbers n.brkAfterLog 0x14#5 f = f := swapNumbers_of_ne hb' h14
  have hh' : f ≠ n.hltAfterBrk := fun e =>
    hh (swapNumbers_inj.mp (h1.trans (swapNumbers_inj.mp (h2.trans e))) ▸ h)
  rw [SpecialNumbers.rowOf, h1, h2, swapNumbers_of_ne hh' h15]

end

/-- R91: the instruction at a word of the special format. -/
theorem decodeAt_special (numbers : SpecialNumbers) {w : Word} (ho : opcodeField w = 0#5) (n1 n2 : Word) :
    decodeAt numbers w n1 n2 = decodeSpecial (numbers.rowOf (bField w)) (decodeOperand (aField w) n1) := by
  rw [decodeAt, ho, decodeOpcode_zero]

/-- R123, R269: the assigned special rows are the nine fixed numbers and the parameters' defaults. -/
theorem unassigned_decodeSpecial (row : BitVec 5) (a : Operand) : Machine.unassigned (decodeSpecial row a) = true ↔
    row ∉ SpecialNumbers.fixed ∧ row ≠ 0x13#5 ∧ row ≠ 0x14#5 ∧ row ≠ 0x15#5 := by
  have hrows : ∀ row : BitVec 5, (!([0x01#5, 0x08#5, 0x09#5, 0x0a#5, 0x0b#5, 0x0c#5, 0x10#5, 0x11#5, 0x12#5, 0x13#5,
      0x14#5, 0x15#5].contains row)) = true ↔
      row ∉ SpecialNumbers.fixed ∧ row ≠ 0x13#5 ∧ row ≠ 0x14#5 ∧ row ≠ 0x15#5 := by decide
  rw [Machine.unassigned, fields_decodeSpecial]
  exact hrows row

/-- R97: a number's row is the default number of a parameter only where the number is the parameter. -/
theorem SpecialNumbers.rowOf_unassigned {n : SpecialNumbers} (hwf : n.wf = true) {f : BitVec 5}
    (h : f ∉ n.log :: n.brk :: n.hlt :: SpecialNumbers.fixed) :
    n.rowOf f ∉ SpecialNumbers.fixed ∧ n.rowOf f ≠ 0x13#5 ∧ n.rowOf f ≠ 0x14#5 ∧ n.rowOf f ≠ 0x15#5 := by
  simp only [List.mem_cons, not_or] at h
  obtain ⟨hlog, hbrk, hhlt, hfixed⟩ := h
  refine ⟨fun hmem => ?_, fun e => ?_, fun e => ?_, fun e => ?_⟩
  · have hself := SpecialNumbers.rowOf_of_mem_fixed hwf hmem
    exact hfixed (n.rowOf_inj.mp hself ▸ hmem)
  · exact hlog (n.rowOf_inj.mp (e.trans (SpecialNumbers.rowOf_log hwf).symm))
  · exact hbrk (n.rowOf_inj.mp (e.trans (SpecialNumbers.rowOf_brk hwf).symm))
  · exact hhlt (n.rowOf_inj.mp (e.trans SpecialNumbers.rowOf_hlt.symm))

/-- Settles O60: what each special number decodes to is its row's instruction, and the rows are those of `rowOf`. -/
theorem specialNumbersAreParameters : Obligations.SpecialNumbersAreParameters := by
  unfold Obligations.SpecialNumbersAreParameters
  intro numbers w n1 n2 hwf ho i a
  have hi : i = decodeSpecial (numbers.rowOf (bField w)) a := decodeAt_special numbers ho n1 n2
  refine ⟨fun h => ?_, fun h => ?_, fun h => ?_, fun h => ?_, fun h => ?_⟩
  · rw [hi, h, SpecialNumbers.rowOf_log hwf]
    rfl
  · rw [hi, h, SpecialNumbers.rowOf_brk hwf]
    rfl
  · rw [hi, h, SpecialNumbers.rowOf_hlt]
    rfl
  · have hrow := SpecialNumbers.rowOf_of_mem_fixed hwf h
    rw [hi, hrow, decodeAt_special _ ho, SpecialNumbers.rowOf_default]
    refine ⟨rfl, Bool.eq_false_iff.mpr fun hu => ?_⟩
    exact ((unassigned_decodeSpecial _ a).mp hu).1 h
  · rw [hi, unassigned_decodeSpecial]
    exact SpecialNumbers.rowOf_unassigned hwf h

end Sys2Proof
end

section
/-! What an executed instruction can do, said once: each instruction runs one of the templates of
spec/40_instruction_cycle.md R139, spec/43_conditional.md R210 and spec/44_special_control.md R230, or the fatal halt of
R270. From that, what no instruction changes, and the invariant along every step. -/

namespace Sys2Proof.Machine

/-! ### The templates of the instructions -/

/-- R230: the special instructions that read their operand, each with its effect after operand a is resolved. -/
inductive SpecialForm : Instr → (Word → State → State) → Prop
  | jsr (a : Operand) : SpecialForm (.jsr a) fun va t => { t.push t.pc with pc := va }
  | int (a : Operand) : SpecialForm (.int a) fun va t => t.raise va
  | ias (a : Operand) : SpecialForm (.ias a) fun va t => { t with ia := va }
  | rfi (a : Operand) : SpecialForm (.rfi a) fun _ t => t.returnFromInterrupt
  | iaq (a : Operand) : SpecialForm (.iaq a) fun va t => { t with iqEnable := va == 0 }
  | hwq (a : Operand) : SpecialForm (.hwq a) fun va t => t.queryDevice va
  | hwi (a : Operand) : SpecialForm (.hwi a) fun va t => t.interruptDevice va
  | log (a : Operand) : SpecialForm (.log a) fun _ t => t
  | brk (a : Operand) : SpecialForm (.brk a) fun _ t => t
  | hlt (a : Operand) : SpecialForm (.hlt a) fun _ t => { t with halted := true }

/-- The template an instruction runs, with its cost as an entry of the `WaitCost` table. -/
inductive ExecForm (i : Instr) : Prop
  /-- R139; `after` is the cursors' step of STI and STD, or nothing. -/
  | basic (op : State → Word → Word → AluOut) (after : State → State) (cost : WaitCost → Nat) (b a : Operand)
      (operands : i.operands = .basic b a) (assigned : unassigned i = false)
      (op_withCosts : ∀ s w, op (s.withCosts w) = op s)
      (after_cases : after = id ∨ ∃ d : Word, after = fun t => t.stepCursors d)
      (exec_eq : ∀ s, exec i s = runBasic (op s) after (cost s.config.waitCost) b a s)
  /-- R210. -/
  | conditional (cond : Word → Word → Bool) (cost : WaitCost → Nat) (b a : Operand)
      (operands : i.operands = .basic b a) (assigned : unassigned i = false) (isConditional : i.isConditional = true)
      (exec_eq : ∀ s, exec i s = runConditional cond (cost s.config.waitCost) b a s)
  /-- R230. -/
  | special (op : Word → State → State) (cost : WaitCost → Nat) (a : Operand)
      (operands : i.operands = .special a) (assigned : unassigned i = false) (form : SpecialForm i op)
      (exec_eq : ∀ s, exec i s = runSpecial op (cost s.config.waitCost) a s)
  /-- R136: IAG and HWN. -/
  | write (value : State → Word) (cost : WaitCost → Nat) (a : Operand)
      (operands : i.operands = .special a) (assigned : unassigned i = false) (value_withCosts : ∀ s w, value (s.withCosts w) = value s)
      (exec_eq : ∀ s, exec i s = runSpecialWrite (value s) (cost s.config.waitCost) a s)
  /-- R268 to R270. -/
  | invalid (unassigned : unassigned i = true) (exec_eq : ∀ s, exec i s = .next s.fatalHalt)

/-- A basic instruction without a further effect, whose operation does not look at the state. -/
theorem ExecForm.alu {i : Instr} (op : Word → Word → AluOut) (cost : WaitCost → Nat) (b a : Operand)
    (operands : i.operands = .basic b a) (assigned : unassigned i = false)
    (exec_eq : ∀ s, exec i s = runBasic op id (cost s.config.waitCost) b a s) : ExecForm i :=
  .basic (fun _ => op) id cost b a operands assigned (fun _ _ => rfl) (.inl rfl) exec_eq

/-- The meaning of every instruction, as the template it runs. -/
theorem execForm (i : Instr) : ExecForm i := by
  cases i with
  | set b a => exact .alu aluSet WaitCost.set b a rfl rfl fun _ => rfl
  | add b a => exact .alu aluAdd WaitCost.add b a rfl rfl fun _ => rfl
  | sub b a => exact .alu aluSub WaitCost.sub b a rfl rfl fun _ => rfl
  | mul b a => exact .alu aluMul WaitCost.mul b a rfl rfl fun _ => rfl
  | mli b a => exact .alu aluMli WaitCost.mli b a rfl rfl fun _ => rfl
  | div b a => exact .alu aluDiv WaitCost.div b a rfl rfl fun _ => rfl
  | dvi b a => exact .alu aluDvi WaitCost.dvi b a rfl rfl fun _ => rfl
  | mod b a =>
    exact .basic (fun s => aluMod s.config.modZeroWritesEx) id WaitCost.mod b a rfl rfl (fun _ _ => rfl) (.inl rfl)
      fun _ => rfl
  | mdi b a =>
    exact .basic (fun s => aluMdi s.config.modZeroWritesEx) id WaitCost.mdi b a rfl rfl (fun _ _ => rfl) (.inl rfl)
      fun _ => rfl
  | and b a => exact .alu aluAnd WaitCost.and b a rfl rfl fun _ => rfl
  | bor b a => exact .alu aluBor WaitCost.bor b a rfl rfl fun _ => rfl
  | xor b a => exact .alu aluXor WaitCost.xor b a rfl rfl fun _ => rfl
  | shr b a => exact .alu aluShr WaitCost.shr b a rfl rfl fun _ => rfl
  | asr b a => exact .alu aluAsr WaitCost.asr b a rfl rfl fun _ => rfl
  | shl b a => exact .alu aluShl WaitCost.shl b a rfl rfl fun _ => rfl
  | ifb b a => exact .conditional condIfb WaitCost.ifb b a rfl rfl rfl fun _ => rfl
  | ifc b a => exact .conditional condIfc WaitCost.ifc b a rfl rfl rfl fun _ => rfl
  | ife b a => exact .conditional condIfe WaitCost.ife b a rfl rfl rfl fun _ => rfl
  | ifn b a => exact .conditional condIfn WaitCost.ifn b a rfl rfl rfl fun _ => rfl
  | ifg b a => exact .conditional condIfg WaitCost.ifg b a rfl rfl rfl fun _ => rfl
  | ifa b a => exact .conditional condIfa WaitCost.ifa b a rfl rfl rfl fun _ => rfl
  | ifl b a => exact .conditional condIfl WaitCost.ifl b a rfl rfl rfl fun _ => rfl
  | ifu b a => exact .conditional condIfu WaitCost.ifu b a rfl rfl rfl fun _ => rfl
  | adx b a =>
    exact .basic (fun s => aluAdx s.config.adxSbxExSigned s.ex) id WaitCost.adx b a rfl rfl (fun _ _ => rfl) (.inl rfl)
      fun _ => rfl
  | sbx b a =>
    exact .basic (fun s => aluSbx s.config.adxSbxExSigned s.ex) id WaitCost.sbx b a rfl rfl (fun _ _ => rfl) (.inl rfl)
      fun _ => rfl
  | sti b a =>
    exact .basic (fun _ => aluSet) (fun t => t.stepCursors 1) WaitCost.sti b a rfl rfl (fun _ _ => rfl)
      (.inr ⟨1, rfl⟩) fun _ => rfl
  | std b a =>
    exact .basic (fun _ => aluSet) (fun t => t.stepCursors (-1)) WaitCost.std b a rfl rfl (fun _ _ => rfl)
      (.inr ⟨-1, rfl⟩) fun _ => rfl
  | jsr a => exact .special _ WaitCost.jsr a rfl rfl (.jsr a) fun _ => rfl
  | int a => exact .special _ WaitCost.int a rfl rfl (.int a) fun _ => rfl
  | iag a => exact .write State.ia WaitCost.iag a rfl rfl (fun _ _ => rfl) fun _ => rfl
  | ias a => exact .special _ WaitCost.ias a rfl rfl (.ias a) fun _ => rfl
  | rfi a => exact .special _ WaitCost.rfi a rfl rfl (.rfi a) fun _ => rfl
  | iaq a => exact .special _ WaitCost.iaq a rfl rfl (.iaq a) fun _ => rfl
  | hwn a => exact .write (fun s => BitVec.ofNat 16 s.deviceCount) WaitCost.hwn a rfl rfl (fun _ _ => rfl) fun _ => rfl
  | hwq a => exact .special _ WaitCost.hwq a rfl rfl (.hwq a) fun _ => rfl
  | hwi a => exact .special _ WaitCost.hwi a rfl rfl (.hwi a) fun _ => rfl
  | log a => exact .special _ WaitCost.log a rfl rfl (.log a) fun _ => rfl
  | brk a => exact .special _ WaitCost.brk a rfl rfl (.brk a) fun _ => rfl
  | hlt a => exact .special _ WaitCost.hlt a rfl rfl (.hlt a) fun _ => rfl
  | invalidBasic18 _ _ | invalidBasic19 _ _ | invalidBasic1C _ _ | invalidBasic1D _ _ => exact .invalid rfl fun _ => rfl
  | invalidSpecial00 _ | invalidSpecial02 _ | invalidSpecial03 _ | invalidSpecial04 _ | invalidSpecial05 _
  | invalidSpecial06 _ | invalidSpecial07 _ | invalidSpecial0D _ | invalidSpecial0E _ | invalidSpecial0F _
  | invalidSpecial16 _ | invalidSpecial17 _ | invalidSpecial18 _ | invalidSpecial19 _ | invalidSpecial1A _
  | invalidSpecial1B _ | invalidSpecial1C _ | invalidSpecial1D _ | invalidSpecial1E _ | invalidSpecial1F _ =>
    exact .invalid rfl fun _ => rfl

/-- R268 to R270: an unassigned encoding, executed, is the fatal halt. -/
theorem exec_of_unassigned {i : Instr} (h : unassigned i = true) (s : State) : exec i s = .next s.fatalHalt := by
  cases execForm i with
  | basic _ _ _ _ _ _ hun => exact absurd h (by simp [hun])
  | conditional _ _ _ _ _ hun => exact absurd h (by simp [hun])
  | special _ _ _ _ hun => exact absurd h (by simp [hun])
  | write _ _ _ _ hun => exact absurd h (by simp [hun])
  | invalid _ hexec => exact hexec s

/-! ### Which forms are refused -/

theorem bothStack_iff {b a : Operand} : bothStack b a = true ↔ b = .stack ∧ a = .stack := by
  simp [bothStack]

theorem bothStack_eq_false_of_ne {b a : Operand} (h : Operands.basic b a ≠ .basic .stack .stack) :
    bothStack b a = false := by
  rw [Bool.eq_false_iff, Ne, bothStack_iff]
  rintro ⟨rfl, rfl⟩
  exact h rfl

theorem runBasic_completes {b a : Operand} (h : bothStack b a = false) (op : Word → Word → AluOut)
    (after : State → State) (cost : Nat) (s : State) : ∃ t, runBasic op after cost b a s = .next t := by
  simp [runBasic, h]

theorem runConditional_completes {b a : Operand} (h : bothStack b a = false) (cond : Word → Word → Bool) (cost : Nat)
    (s : State) : ∃ t, runConditional cond cost b a s = .next t := by
  simp [runConditional, h]

/-- Settles O21: the two templates with two operands refuse the one form, the others nothing. -/
theorem everyInstructionCompletes : Obligations.EveryInstructionCompletes := by
  unfold Obligations.EveryInstructionCompletes
  intro i s
  cases execForm i with
  | basic op after cost b a hops hun _ _ hexec =>
    rw [hops, hexec, hun]
    refine ⟨fun ⟨_, h⟩ => ?_, fun h => ?_⟩
    · cases h
      exact runBasic_bothStack _ _ _ s rfl
    · exact runBasic_completes (bothStack_eq_false_of_ne fun e => h ⟨rfl, e⟩) _ _ _ s
  | conditional cond cost b a hops hun _ hexec =>
    rw [hops, hexec, hun]
    refine ⟨fun ⟨_, h⟩ => ?_, fun h => ?_⟩
    · cases h
      exact runConditional_bothStack _ _ s rfl
    · exact runConditional_completes (bothStack_eq_false_of_ne fun e => h ⟨rfl, e⟩) _ _ s
  | special op cost a hops _ _ hexec =>
    rw [hops, hexec]
    exact ⟨fun h => (nomatch h.2), fun _ => ⟨_, rfl⟩⟩
  | write value cost a hops _ _ hexec =>
    rw [hops, hexec]
    exact ⟨fun h => (nomatch h.2), fun _ => ⟨_, rfl⟩⟩
  | invalid hun hexec =>
    rw [hun, hexec]
    exact ⟨fun h => (nomatch h.1), fun _ => ⟨_, rfl⟩⟩

/-! ### The frame of an executed instruction -/

/-- What an executed instruction leaves alone, whatever it is, and which fields of the control state it may change. -/
structure ExecFrame (i : Instr) (s t : State) : Prop where
  config : t.config = s.config
  fixed : t.devices.map Device.fixed = s.devices.map Device.fixed
  leftover : t.leftover = s.leftover
  guarding : t.guarding = s.guarding
  iq : s.iq <+: t.iq
  skipping : t.skipping ≠ s.skipping → i.isConditional = true ∧ t.skipping = true
  ia : t.ia ≠ s.ia → ∃ a, i = .ias a
  iqEnable : t.iqEnable ≠ s.iqEnable → (∃ a, i = .rfi a) ∨ ∃ a, i = .iaq a
  halted : t.halted ≠ s.halted → (∃ a, i = .hlt a) ∧ t.halted = true
  running : t.running ≠ s.running → unassigned i = true ∧ t.running = false

/-- R253: what a device leaves alone in HWI is in the frame of every instruction. -/
theorem State.interruptDevice_frame (s : State) (index : Word) (i : Instr) : ExecFrame i s (s.interruptDevice index) := by
  obtain ⟨k, -, h⟩ | ⟨-, h⟩ := s.interruptDevice_cases index
  · obtain ⟨-, -, hia, hen, hsk, hha, hru, hle, hcf, -, hgu, hiq, -, hfx⟩ := s.runHandler_frame k
      (Config.deviceCommand k s) (Config.deviceResponse k s) (Config.deviceFollowUp k s)
    rw [h]
    exact ⟨hcf, hfx, hle, hgu, hiq, (absurd hsk ·), (absurd hia ·), (absurd hen ·), (absurd hha ·), (absurd hru ·)⟩
  · rw [h]
    constructor <;> simp

/-- R252: HWQ writes registers alone. -/
theorem State.queryDevice_frame (s : State) (index : Word) (i : Instr) : ExecFrame i s (s.queryDevice index) := by
  obtain ⟨k, d, -, -, h⟩ | ⟨-, h⟩ := s.queryDevice_cases index
  · rw [h]
    constructor <;> simp
  · rw [h]
    constructor <;> simp

/-- The frame of each special instruction's effect. -/
theorem SpecialForm.frame {i : Instr} {op : Word → State → State} (h : SpecialForm i op) (v : Word) (s : State) :
    ExecFrame i s (op v s) := by
  cases h with
  | int a =>
    have hiq := s.raise_iq_prefix v
    constructor <;> simp [hiq]
  | hwq a => exact s.queryDevice_frame v _
  | hwi a => exact s.interruptDevice_frame v _
  | jsr | ias | rfi | iaq | log | brk | hlt => constructor <;> simp

/-- The charge and operand a's resolution stand outside the frame. -/
theorem ExecFrame.around {i : Instr} {s t : State} (a : Operand) (cost : Nat) (h : ExecFrame i (s.popAdjust a) t) :
    ExecFrame i s (chargeSpecial cost a t) := by
  obtain ⟨hcf, hfx, hle, hgu, hiq, hsk, hia, hen, hha, hru⟩ := h
  simp only [State.popAdjust_config, State.popAdjust_devices, State.popAdjust_leftover, State.popAdjust_guarding,
    State.popAdjust_iq, State.popAdjust_skipping, State.popAdjust_ia, State.popAdjust_iqEnable, State.popAdjust_halted,
    State.popAdjust_running] at hcf hfx hle hgu hiq hsk hia hen hha hru
  exact ⟨hcf, hfx, hle, hgu, hiq, hsk, hia, hen, hha, hru⟩

/-- The frame of every instruction, template by template. -/
theorem exec_frame {i : Instr} {s t : State} (h : exec i s = .next t) : ExecFrame i s t := by
  cases execForm i with
  | basic op after cost b a _ _ _ hafter hexec =>
    obtain ⟨-, rfl⟩ := runBasic_next (hexec s ▸ h)
    obtain rfl | ⟨d, rfl⟩ := hafter <;> constructor <;> simp [chargeBasic]
  | conditional cond cost b a _ _ hc hexec =>
    obtain ⟨-, u, rfl, rfl | rfl⟩ := runConditional_next (hexec s ▸ h) <;> constructor <;> simp [chargeBasic, hc]
  | special op cost a _ _ hform hexec =>
    rw [hexec] at h
    cases h
    exact (hform.frame _ _).around a _
  | write value cost a _ _ _ hexec =>
    rw [hexec] at h
    cases h
    refine ExecFrame.around a _ ?_
    constructor <;> simp
  | invalid hun hexec =>
    rw [hexec] at h
    cases h
    constructor <;> simp [hun]

/-- Settles O19: the control state's part of the frame. -/
theorem onlyTheNamedInstructionsWriteControlState : Obligations.OnlyTheNamedInstructionsWriteControlState := by
  unfold Obligations.OnlyTheNamedInstructionsWriteControlState
  intro i s t h
  have hframe := exec_frame h
  exact ⟨hframe.skipping, hframe.ia, hframe.iqEnable, hframe.halted, hframe.running, hframe.leftover⟩

/-- What an iteration that executes leaves of the parameters and of what the devices are. -/
theorem executeOne_constants {s t : State} (h : executeOne s = .next t) :
    t.config = s.config ∧ t.devices.map Device.fixed = s.devices.map Device.fixed := by
  obtain ⟨-, -, hskip⟩ | hexec := executeOne_cases s
  · rw [hskip] at h
    cases h
    exact ⟨rfl, rfl⟩
  · have hframe := exec_frame (hexec ▸ h)
    exact ⟨hframe.config, hframe.fixed⟩

/-- R44: a step changes no parameter, and of a device neither its place nor its identity nor its behaviour. -/
theorem step_constants {s t : State} (h : step s = .next t) :
    t.config = s.config ∧ t.devices.map Device.fixed = s.devices.map Device.fixed := by
  rw [step_eq] at h
  split_ifs at h
  · cases h
    exact ⟨rfl, rfl⟩
  · cases h
    exact ⟨rfl, rfl⟩
  · cases h
    simp
  · simpa using executeOne_constants h

/-- Settles O18: the device table is a function of the devices' places. -/
theorem parametersAndDeviceTableAreConstant : Obligations.ParametersAndDeviceTableAreConstant := by
  unfold Obligations.ParametersAndDeviceTableAreConstant
  intro s t h
  obtain ⟨hconfig, hfixed⟩ := step_constants h
  exact ⟨hconfig, childrenOf_congr hfixed .processor, hfixed⟩

/-! ### The invariant along a step -/

theorem State.Inv.stepCursors {s : State} (h : s.Inv) (d : Word) : (s.stepCursors d).Inv :=
  (h.setReg .i _).setReg .j _

theorem State.Inv.queryDevice {s : State} (h : s.Inv) (index : Word) : (s.queryDevice index).Inv := by
  obtain ⟨k, d, -, -, hshow⟩ | ⟨-, hsame⟩ := s.queryDevice_cases index
  · rw [hshow]
    exact ((((h.setReg _ _).setReg _ _).setReg _ _).setReg _ _).setReg _ _
  · rw [hsame]
    exact h

theorem State.Inv.interruptDevice {s : State} (h : s.Inv) (index : Word) : (s.interruptDevice index).Inv := by
  obtain ⟨k, -, hrun⟩ | ⟨-, hsame⟩ := s.interruptDevice_cases index
  · rw [hrun]
    exact h.hardwareInterrupt k
  · rw [hsame]
    exact h

/-- Each special instruction's effect keeps the invariant: a push, a message raised, a device's acts, or fields the
invariant does not speak of. -/
theorem SpecialForm.inv {i : Instr} {op : Word → State → State} (h : SpecialForm i op) (v : Word) {s : State}
    (hs : s.Inv) : (op v s).Inv := by
  cases h with
  | jsr a => exact (hs.push s.pc).setPc v
  | int a => exact hs.raise v
  | hwq a => exact hs.queryDevice v
  | hwi a => exact hs.interruptDevice v
  | ias | rfi | iaq | log | brk | hlt => exact hs.congr rfl rfl rfl rfl rfl rfl rfl

theorem State.Inv.exec {i : Instr} {s t : State} (hs : s.Inv) (h : exec i s = .next t) : t.Inv := by
  cases execForm i with
  | basic op after cost b a _ _ _ hafter hexec =>
    obtain ⟨-, rfl⟩ := runBasic_next (hexec s ▸ h)
    have hwritten := ((hs.popAdjust a).pushAdjust b).writeBack (s.target b a) (op s (s.valueB b a) (s.valueA a))
    obtain rfl | ⟨d, rfl⟩ := hafter
    · exact hwritten.addWait _
    · exact (hwritten.stepCursors d).addWait _
  | conditional cond cost b a _ _ _ hexec =>
    have hresolved := (hs.popAdjust a).pushAdjust b
    obtain ⟨-, u, rfl, rfl | rfl⟩ := runConditional_next (hexec s ▸ h)
    · exact hresolved.addWait _
    · exact hresolved.congr rfl rfl rfl rfl rfl rfl rfl
  | special op cost a _ _ hform hexec =>
    rw [hexec] at h
    cases h
    exact (hform.inv _ (hs.popAdjust a)).addWait _
  | write value cost a _ _ _ hexec =>
    rw [hexec] at h
    cases h
    exact ((hs.popAdjust a).writeLoc _ _).addWait _
  | invalid _ hexec =>
    rw [hexec] at h
    cases h
    exact hs.congr rfl rfl rfl rfl rfl rfl rfl

theorem State.Inv.executeOne {s t : State} (hs : s.Inv) (h : executeOne s = .next t) : t.Inv := by
  have hfetched : s.afterFetch.Inv := hs.congr rfl rfl rfl rfl rfl rfl rfl
  obtain ⟨-, -, hskip⟩ | hexec := executeOne_cases s
  · rw [hskip] at h
    cases h
    exact hfetched.congr rfl rfl rfl rfl rfl rfl rfl
  · exact hfetched.exec (hexec ▸ h)

/-- R352: the four ways an iteration goes. -/
theorem State.Inv.step {s t : State} (hs : s.Inv) (h : step s = .next t) : t.Inv := by
  rw [step_eq] at h
  split_ifs at h
  · cases h
    exact hs
  · cases h
    exact hs.congr rfl rfl rfl rfl rfl rfl rfl
  · cases h
    exact hs.attemptDelivery
  · exact hs.attemptDelivery.executeOne h

/-- Settles O16. -/
theorem stepKeepsTheInvariant : Obligations.StepKeepsTheInvariant := by
  unfold Obligations.StepKeepsTheInvariant
  exact fun _ _ hs h => hs.step h

/-! ### EX -/

/-- R126: only the operand EX names EX. -/
theorem State.place_eq_ex {s : State} {o : Operand} : s.place o = .ex ↔ o = .ex := by
  cases o <;> simp [State.place]

theorem State.target_eq_ex {s : State} {b a : Operand} : s.target b a = .ex ↔ b = .ex := State.place_eq_ex

/-- R134: an opcode without a rule for EX changes EX through its destination alone. -/
theorem runBasic_ex_of_exNew {op : Word → Word → AluOut} {after : State → State} {cost : Nat} {b a : Operand}
    {s t : State} (h : runBasic op after cost b a s = .next t) (hafter : ∀ u, (after u).ex = u.ex)
    (hop : (op (s.valueB b a) (s.valueA a)).exNew = none) (hne : t.ex ≠ s.ex) : b = .ex := by
  obtain ⟨-, rfl⟩ := runBasic_next h
  by_contra hb
  refine hne ?_
  have htarget : s.target b a ≠ .ex := fun e => hb (State.target_eq_ex.mp e)
  simp [chargeBasic, hafter, State.writeBack_ex, hop, htarget, exAfter]

theorem runConditional_ex {cond : Word → Word → Bool} {cost : Nat} {b a : Operand} {s t : State}
    (h : runConditional cond cost b a s = .next t) : t.ex = s.ex := by
  obtain ⟨-, u, rfl, rfl | rfl⟩ := runConditional_next h <;> simp [chargeBasic]

/-- R254, R255: no special instruction that reads its operand writes EX, HWI not either. -/
theorem SpecialForm.ex {i : Instr} {op : Word → State → State} (h : SpecialForm i op) (v : Word) (s : State) :
    (op v s).ex = s.ex := by
  cases h with
  | hwq a => obtain ⟨k, d, -, -, e⟩ | ⟨-, e⟩ := s.queryDevice_cases v <;> simp [e]
  | hwi a =>
    obtain ⟨k, -, e⟩ | ⟨-, e⟩ := s.interruptDevice_cases v
    · obtain ⟨-, hex, -⟩ := s.runHandler_frame k
        (Config.deviceCommand k s) (Config.deviceResponse k s) (Config.deviceFollowUp k s)
      simp only [e]
      exact hex
    · simp only [e]
  | jsr | int | ias | rfi | iaq | log | brk | hlt => simp

theorem runSpecial_ex {i : Instr} {op : Word → State → State} (hform : SpecialForm i op) {cost : Nat} {a : Operand}
    {s t : State} (h : runSpecial op cost a s = .next t) : t.ex = s.ex := by
  cases h
  simp [chargeSpecial, hform.ex]

theorem runSpecialWrite_ex {v : Word} {cost : Nat} {a : Operand} {s t : State}
    (h : runSpecialWrite v cost a s = .next t) (hne : t.ex ≠ s.ex) : a = .ex := by
  cases h
  by_contra ha
  refine hne ?_
  have hplace : s.place a ≠ .ex := fun e => ha (State.place_eq_ex.mp e)
  cases hl : s.place a <;> simp_all [chargeSpecial, State.writeLoc]

/-- R168, R169: a divisor that is not 0 leaves EX alone. -/
theorem aluMod_exNew {va : Word} (h : va ≠ 0) (writesEx : Bool) (vb : Word) : (aluMod writesEx vb va).exNew = none := by
  rw [aluMod, if_neg h]
  rfl

theorem aluMdi_exNew {va : Word} (h : va ≠ 0) (writesEx : Bool) (vb : Word) : (aluMdi writesEx vb va).exNew = none := by
  rw [aluMdi, if_neg h]
  rfl

/-- Settles O20, by the templates: EX changes by the opcode's rule for it or as a destination. -/
theorem onlyTheNamedInstructionsWriteEx : Obligations.OnlyTheNamedInstructionsWriteEx := by
  unfold Obligations.OnlyTheNamedInstructionsWriteEx
  intro i s t h hne
  cases i with
  | add | sub | mul | mli | div | dvi | adx | sbx | shr | asr | shl => trivial
  | mod b a =>
    refine or_iff_not_imp_left.mpr fun ha => ?_
    exact runBasic_ex_of_exNew h (fun _ => rfl) (aluMod_exNew ha _ _) hne
  | mdi b a =>
    refine or_iff_not_imp_left.mpr fun ha => ?_
    exact runBasic_ex_of_exNew h (fun _ => rfl) (aluMdi_exNew ha _ _) hne
  | set | and | bor | xor => exact runBasic_ex_of_exNew h (fun _ => rfl) rfl hne
  | sti =>
    exact runBasic_ex_of_exNew (op := aluSet) (after := (State.stepCursors · 1)) h (fun u => u.stepCursors_ex 1) rfl hne
  | std =>
    exact runBasic_ex_of_exNew (op := aluSet) (after := (State.stepCursors · (-1))) h (fun u => u.stepCursors_ex (-1))
      rfl hne
  | iag | hwn => exact runSpecialWrite_ex h hne
  | ifb | ifc | ife | ifn | ifg | ifa | ifl | ifu => exact hne (runConditional_ex h)
  | jsr a => exact hne (runSpecial_ex (.jsr a) h)
  | int a => exact hne (runSpecial_ex (.int a) h)
  | ias a => exact hne (runSpecial_ex (.ias a) h)
  | rfi a => exact hne (runSpecial_ex (.rfi a) h)
  | iaq a => exact hne (runSpecial_ex (.iaq a) h)
  | hwq a => exact hne (runSpecial_ex (.hwq a) h)
  | hwi a => exact hne (runSpecial_ex (.hwi a) h)
  | log a => exact hne (runSpecial_ex (.log a) h)
  | brk a => exact hne (runSpecial_ex (.brk a) h)
  | hlt a => exact hne (runSpecial_ex (.hlt a) h)
  | _ =>
    cases h
    exact hne rfl

/-! ### The wait-state costs -/

section
variable (s : State) (w : WaitCost)

/-! R366: the operations of the templates do not look at the `WaitCost` table. -/

theorem State.popAdjust_withCosts (o : Operand) : (s.withCosts w).popAdjust o = (s.popAdjust o).withCosts w := by
  simp only [State.popAdjust_eq]
  rfl

theorem State.pushAdjust_withCosts (o : Operand) : (s.withCosts w).pushAdjust o = (s.pushAdjust o).withCosts w := by
  simp only [State.pushAdjust_eq]
  rfl

theorem State.place_withCosts (o : Operand) : (s.withCosts w).place o = s.place o := by cases o <;> rfl

theorem State.readLoc_withCosts (l : Loc) : (s.withCosts w).readLoc l = s.readLoc l := by cases l <;> rfl

theorem State.writeLoc_withCosts (l : Loc) (v : Word) :
    (s.withCosts w).writeLoc l v = (s.writeLoc l v).withCosts w := by cases l <;> rfl

theorem State.writeBack_withCosts (l : Loc) (out : AluOut) :
    (s.withCosts w).writeBack l out = (s.writeBack l out).withCosts w := by
  have hconfig : (s.withCosts w).config.exDestOrder = s.config.exDestOrder := rfl
  have hex : ∀ (t : State) (e : Word), { t.withCosts w with ex := e } = { t with ex := e }.withCosts w := fun _ _ => rfl
  simp only [State.writeBack, hconfig]
  cases s.config.exDestOrder <;> cases out.result <;> cases out.exNew <;> simp only [State.writeLoc_withCosts, hex]

theorem State.raise_withCosts (m : Word) : (s.withCosts w).raise m = (s.raise m).withCosts w := by
  by_cases hia : s.ia = 0
  · rw [State.raise_of_ia_eq_zero hia, State.raise_of_ia_eq_zero (s := s.withCosts w) hia]
  · by_cases hroom : s.iq.length < Config.queueCapacity
    · rw [State.raise_of_accepts hia hroom, State.raise_of_accepts (s := s.withCosts w) hia hroom]
      rfl
    · rw [State.raise_of_queue_full (not_lt.mp hroom), State.raise_of_queue_full (s := s.withCosts w) (not_lt.mp hroom)]

theorem State.queryDevice_withCosts (index : Word) :
    (s.withCosts w).queryDevice index = (s.queryDevice index).withCosts w := by
  have hshown : ((s.withCosts w).deviceAt index).bind (s.withCosts w).identityOf =
    (s.deviceAt index).bind s.identityOf := rfl
  unfold State.queryDevice
  rw [hshown]
  cases (s.deviceAt index).bind s.identityOf <;> rfl

end

theorem SpecialForm.withCosts {i : Instr} {op : Word → State → State} (h : SpecialForm i op) (hi : ∀ a, i ≠ .hwi a)
    (v : Word) (s : State) (w : WaitCost) : op v (s.withCosts w) = (op v s).withCosts w := by
  cases h with
  | int a => exact s.raise_withCosts w v
  | hwq a => exact s.queryDevice_withCosts w v
  | hwi a => exact absurd rfl (hi a)
  | jsr | ias | rfi | iaq | log | brk | hlt => rfl

/-- R135, R366: two charges of one state, under two tables, leave states that differ in `wait` and the table. -/
theorem exists_wait_of_charges {r : Result} {u t : State} {w : WaitCost} {n n' : Nat} (ht : t = u.addWait n)
    (hr : r = .next ((u.withCosts w).addWait n')) : ∃ k, r = .next { t.withCosts w with wait := k } :=
  ⟨u.wait + n', by rw [hr, ht]; rfl⟩

theorem State.valueA_withCosts (s : State) (w : WaitCost) (a : Operand) : (s.withCosts w).valueA a = s.valueA a := by
  simp only [State.valueA, State.place_withCosts, State.readLoc_withCosts]

theorem State.valueB_withCosts (s : State) (w : WaitCost) (b a : Operand) :
    (s.withCosts w).valueB b a = s.valueB b a := by
  simp only [State.valueB, State.target, State.placeB, State.popAdjust_withCosts, State.pushAdjust_withCosts,
    State.place_withCosts, State.readLoc_withCosts]

theorem runBasic_withCosts {op : Word → Word → AluOut} {after : State → State} {cost : Nat} {b a : Operand} {s t : State}
    (hafter : after = id ∨ ∃ d : Word, after = fun t => t.stepCursors d)
    (h : runBasic op after cost b a s = .next t) (cost' : Nat) (w : WaitCost) :
    ∃ n, runBasic op after cost' b a (s.withCosts w) = .next { t.withCosts w with wait := n } := by
  obtain ⟨hb, ht⟩ := runBasic_next h
  have hcommutes : ∀ u : State, after (u.withCosts w) = (after u).withCosts w := by
    obtain rfl | ⟨d, rfl⟩ := hafter <;> exact fun _ => rfl
  apply exists_wait_of_charges ht
  simp only [runBasic, hb, Bool.false_eq_true, if_false, State.valueA_withCosts, State.placeB, State.popAdjust_withCosts,
    State.pushAdjust_withCosts, State.place_withCosts, State.readLoc_withCosts, State.writeBack_withCosts, hcommutes]
  rfl

/-- R210: the whole next state of a conditional. -/
theorem runConditional_eq {b a : Operand} (hb : bothStack b a = false) (cond : Word → Word → Bool) (cost : Nat)
    (s : State) : runConditional cond cost b a s = .next (chargeBasic cost b a
      { (s.popAdjust a).pushAdjust b with skipping := s.skipping || !cond (s.valueB b a) (s.valueA a) }) := by
  have hskip : ((s.popAdjust a).pushAdjust b).skipping = s.skipping := by simp
  rw [runConditional, if_neg (by simp [hb])]
  show Host.Outcome.next (chargeBasic cost b a (if cond (s.valueB b a) (s.valueA a) then _ else _)) = _
  cases cond (s.valueB b a) (s.valueA a)
  · simp
  · rw [Bool.not_true, Bool.or_false, ← hskip]
    rfl

theorem runConditional_withCosts {cond : Word → Word → Bool} {cost : Nat} {b a : Operand} {s t : State}
    (h : runConditional cond cost b a s = .next t) (cost' : Nat) (w : WaitCost) :
    ∃ n, runConditional cond cost' b a (s.withCosts w) = .next { t.withCosts w with wait := n } := by
  obtain ⟨hb, -⟩ := runConditional_next h
  rw [runConditional_eq hb] at h ⊢
  cases h
  apply exists_wait_of_charges rfl
  rw [State.popAdjust_withCosts, State.pushAdjust_withCosts, State.valueA_withCosts, State.valueB_withCosts]
  rfl

theorem runSpecial_withCosts {op : Word → State → State} {cost : Nat} {a : Operand} {s t : State} {w : WaitCost}
    (hop : ∀ v u, op v (u.withCosts w) = (op v u).withCosts w) (h : runSpecial op cost a s = .next t) (cost' : Nat) :
    ∃ n, runSpecial op cost' a (s.withCosts w) = .next { t.withCosts w with wait := n } := by
  cases h
  apply exists_wait_of_charges rfl
  simp only [runSpecial, State.valueA_withCosts, State.popAdjust_withCosts, hop]
  rfl

theorem runSpecialWrite_withCosts {v : Word} {cost : Nat} {a : Operand} {s t : State}
    (h : runSpecialWrite v cost a s = .next t) (cost' : Nat) (w : WaitCost) :
    ∃ n, runSpecialWrite v cost' a (s.withCosts w) = .next { t.withCosts w with wait := n } := by
  cases h
  apply exists_wait_of_charges rfl
  simp only [runSpecialWrite, State.place_withCosts, State.popAdjust_withCosts, State.writeLoc_withCosts]
  rfl

/-- Settles O22, template by template. -/
theorem waitCostsDecideNothingButWait : Obligations.WaitCostsDecideNothingButWait := by
  unfold Obligations.WaitCostsDecideNothingButWait
  intro i s t w hi h
  cases execForm i with
  | basic op after cost b a _ _ hop hafter hexec =>
    rw [hexec, hop]
    exact runBasic_withCosts hafter (hexec s ▸ h) _ w
  | conditional cond cost b a _ _ _ hexec =>
    rw [hexec]
    exact runConditional_withCosts (hexec s ▸ h) _ w
  | special op cost a _ _ hform hexec =>
    rw [hexec]
    exact runSpecial_withCosts (fun v u => hform.withCosts hi v u w) (hexec s ▸ h) _
  | write value cost a _ _ hvalue hexec =>
    rw [hexec, hvalue]
    exact runSpecialWrite_withCosts (hexec s ▸ h) _ w
  | invalid _ hexec =>
    rw [hexec] at h ⊢
    cases h
    exact ⟨s.wait, rfl⟩

end Sys2Proof.Machine
end

section
/-! What the host and the devices do from outside an iteration (spec/70_reset_and_hazards.md, spec/60_exceptions.md R300
to R319): every act keeps the invariant, the machine has it at creation and after `Reset`, and attach appends. -/

namespace Sys2Proof.Machine

/-! ### The machine at creation -/

/-- A table that lists the same value at each key of a segment is canonical. -/
theorem Store.wfFrom_segment {α : Type} [DecidableEq α] {d v : α} (hv : v ≠ d) {bound : Nat} (lo n : Nat)
    (hbound : lo + n ≤ bound) : Store.wfFrom d bound lo ((List.range' lo n).map fun k => (k, v)) = true := by
  induction n generalizing lo with
  | zero => rfl
  | succ n ih =>
    have hlt : lo < bound := by omega
    have htail := ih (lo + 1) (by omega)
    simp [List.range'_succ, Store.wfFrom, hlt, hv, htail]

theorem State.creation_tablesWf : State.creation.tablesWf = true := by
  have hdirty : Store.wf true Config.regionCount State.creation.dirty = true := by
    rw [Store.wf, State.creation, List.range_eq_range']
    exact Store.wfFrom_segment (by decide) 0 Config.regionCount (by decide)
  exact (State.tablesWf_iff _).mpr ⟨rfl, hdirty, rfl⟩

theorem State.Inv.reset : State.reset.Inv where
  tables := State.reset_tablesWf
  queue := by decide
  counts := fun _ => rfl
  devices := rfl
  deviceCount := by decide
  config := by decide

/-- Settles O15: creation differs from the reset state in its dirty flags alone. -/
theorem resetSatisfiesTheInvariant : Obligations.ResetSatisfiesTheInvariant := by
  unfold Obligations.ResetSatisfiesTheInvariant
  exact ⟨State.Inv.reset, State.Inv.reset.tables_only State.creation_tablesWf rfl rfl rfl rfl rfl⟩

/-! ### Attach -/

/-- R300: a device appended is the last child of its parent, and no other child list changes. -/
theorem childrenOf_append (devices : List Device) (d : Device) (u : Upstream) :
    childrenOf (devices ++ [d]) u = childrenOf devices u ++ if d.upstream = u then [devices.length] else [] := by
  have hold : ∀ k ∈ List.range devices.length, ((devices ++ [d])[k]?.map Device.upstream == some u) =
      (devices[k]?.map Device.upstream == some u) := fun k hk => by
    rw [List.getElem?_append_left (List.mem_range.mp hk)]
  simp only [childrenOf, List.length_append, List.length_singleton, List.range_succ, List.filter_append,
    List.filter_congr hold]
  by_cases hu : d.upstream = u <;> simp [hu]

/-- A device whose parent is there already keeps hubs before their children. -/
theorem devicesWf_append {devices : List Device} (h : devicesWf devices = true) {d : Device}
    (hd : ∀ parent, d.upstream = .device parent → parent < devices.length) : devicesWf (devices ++ [d]) = true := by
  simp only [devicesWf, List.all_eq_true, List.mem_range, List.length_append, List.length_singleton] at h ⊢
  intro k hk
  rcases Nat.lt_succ_iff_lt_or_eq.mp hk with hlt | rfl
  · rw [List.getElem?_append_left hlt]
    exact h k hlt
  · rw [List.getElem?_concat_length]
    cases hu : d.upstream with
    | processor => simp [hu]
    | device parent => simpa [hu] using hd parent hu

/-- R300: everything attach can do that is not a refusal. -/
theorem State.attach_next {s t : State} {upstream : Upstream} {identity : Identity} {kind : DeviceKind}
    (h : s.attach upstream identity kind = .next t) :
    t = { s with devices := s.devices ++ [{ upstream, identity, kind }] } ∧
      (upstream = .processor → s.deviceCount < Config.maxDevices) ∧
      ∀ parent, upstream = .device parent → parent < s.devices.length := by
  unfold State.attach at h
  cases upstream with
  | processor =>
    simp only at h
    split_ifs at h with hrunning hcount
    cases h
    exact ⟨rfl, fun _ => hcount, nofun⟩
  | device node =>
    simp only at h
    split_ifs at h with hrunning hnode
    cases h
    exact ⟨rfl, nofun, fun parent hp => by cases hp; exact hnode⟩

theorem State.Inv.attach {s t : State} (hs : s.Inv) {upstream : Upstream} {identity : Identity} {kind : DeviceKind}
    (h : s.attach upstream identity kind = .next t) : t.Inv := by
  obtain ⟨rfl, hcount, hparent⟩ := State.attach_next h
  refine ⟨hs.tables, hs.queue, hs.counts, devicesWf_append hs.devices hparent, ?_, hs.config⟩
  have hbound := hs.deviceCount
  simp only [State.deviceCount, State.deviceTable, childrenOf_append, List.length_append] at hcount hbound ⊢
  by_cases hu : upstream = .processor
  · rw [if_pos hu]
    exact hcount hu
  · rw [if_neg hu]
    exact hbound

/-- Settles O31: the new device is the processor's last child. -/
theorem attachGivesTheNextIndex : Obligations.AttachGivesTheNextIndex := by
  unfold Obligations.AttachGivesTheNextIndex
  intro s id kind hrunning hcount
  have hattach : s.attach .processor id kind =
      .next { s with devices := s.devices ++ [{ upstream := .processor, identity := id, kind := kind }] } := by
    rw [State.attach, if_neg (by simp [hrunning])]
    exact if_pos hcount
  refine ⟨_, hattach, rfl, ?_⟩
  simp [State.deviceCount, State.deviceTable, childrenOf_append]

/-! ### Every act keeps the invariant -/

/-- R343, before the broadcast: the memory reset keeps the counts and their subscriptions. -/
theorem State.Inv.clear {s : State} (hs : s.Inv) : s.clear.Inv where
  tables := s.memoryReset_tablesWf hs.tables
  queue := Nat.zero_le _
  counts := hs.counts
  devices := hs.devices
  deviceCount := hs.deviceCount
  config := hs.config

theorem State.Inv.setLeftover {s : State} (hs : s.Inv) (n : Nat) : { s with leftover := n }.Inv :=
  hs.congr rfl rfl rfl rfl rfl rfl rfl

theorem State.Inv.setRunning {s : State} (hs : s.Inv) (on : Bool) : { s with running := on }.Inv :=
  hs.congr rfl rfl rfl rfl rfl rfl rfl

/-- R351: a Tick runs iterations. -/
theorem State.Inv.tick {s t : State} (hs : s.Inv) {n : Nat} (h : s.tick n = .next t) : t.Inv := by
  unfold State.tick at h
  split_ifs at h
  · cases h
    exact hs
  · exact iterations_keep (fun _ _ hu hstep => hu.step hstep) _ (hs.setLeftover _) h

theorem State.Inv.romCommand {s t : State} (hs : s.Inv) {node : Nat} (h : s.romCommand node = .next t) : t.Inv := by
  unfold State.romCommand at h
  split at h
  · cases h
    exact hs.loadRom _
  · cases h

theorem State.Inv.storageCommand {s t : State} (hs : s.Inv) {node : Nat} {kind : TransferKind} {sector : Nat}
    {base : Word} (h : s.storageCommand node kind sector base = .next t) : t.Inv := by
  unfold State.storageCommand at h
  split at h
  · cases h
  · split at h
    · rename_i hcommand
      cases h
      exact hs.transferCommand hcommand
    · cases h

theorem State.Inv.storageBackground {s t : State} (hs : s.Inv) {node : Nat} {fetched : Block}
    (h : s.storageBackground node fetched = .next t) : t.Inv := by
  unfold State.storageBackground at h
  split at h
  · cases h
  · split at h
    · cases h
      exact hs
    · cases h
      exact hs.setKind node _

/-- R317: a completion writes its window, its own device and the queue. -/
theorem State.Inv.storageComplete {s : State} (hs : s.Inv) (node : Nat) (c : Storage) (t : Transfer) (block : Block) :
    (s.storageComplete node c t block).Inv := by
  unfold State.storageComplete
  have hidle := hs.setKind node (.storage { c with transfer := none, activity := true })
  cases t.kind with
  | reading => exact (hidle.load _ _).raise _
  | writing => exact hidle.raise _

theorem State.Inv.storageTick {s t : State} (hs : s.Inv) {node : Nat} (h : s.storageTick node = .next t) : t.Inv := by
  unfold State.storageTick at h
  split at h
  · cases h
  · split at h
    · cases h
      exact hs
    · dsimp only at h
      split at h
      · cases h
        exact hs.storageComplete node _ _ _
      · cases h
        exact hs.setKind node _

theorem State.Inv.storageMedium {s t : State} (hs : s.Inv) {node : Nat} {medium : Option Nat}
    (h : s.storageMedium node medium = .next t) : t.Inv := by
  unfold State.storageMedium at h
  split at h
  · cases h
  · rename_i c _
    have hset := hs.setKind node (.storage { c with medium })
    cases h
    split_ifs
    · exact hset.raise _
    · exact hset

/-- Settles O17, act by act. -/
theorem hostActionsKeepTheInvariant : Obligations.HostActionsKeepTheInvariant := by
  unfold Obligations.HostActionsKeepTheInvariant
  intro act s t hs h
  cases act with
  | attach upstream identity kind => exact hs.attach h
  | start =>
    cases h
    exact (hs.setRunning true).broadcast .start
  | stop =>
    cases h
    exact (hs.setRunning false).broadcast .stop
  | reset =>
    cases h
    exact hs.clear.broadcast .reset
  | tick n => exact hs.tick h
  | deviceActs node ops =>
    simp only [hostStep] at h
    split_ifs at h
    cases h
    exact hs.deviceOps node ops
  | romCommand node => exact hs.romCommand h
  | storageCommand node kind sector base => exact hs.storageCommand h
  | storageBackground node fetched => exact hs.storageBackground h
  | storageTick node => exact hs.storageTick h
  | storageMedium node medium => exact hs.storageMedium h

end Sys2Proof.Machine
end

section
/-! Stores in sequence: what `load` leaves in memory (R64), what a queue drained by nothing holds (R285), and the two words
that delivery pushes (R292). -/

namespace Sys2Proof.Machine

/-! ### Stores -/

theorem StoresOnly.refl (s : State) : StoresOnly s s fun _ => none := by
  constructor <;> simp

/-- The later of two stores to one cell stands. -/
theorem StoresOnly.trans {s t u : State} {f g : Word → Option Word} (hst : StoresOnly s t f) (htu : StoresOnly t u g) :
    StoresOnly s u fun addr => (g addr).or (f addr) := by
  constructor
  case mem =>
    intro addr
    rw [htu.mem, hst.mem]
    cases g addr <;> rfl
  case dirty =>
    intro r
    simp only [htu.dirty, hst.dirty, Option.isSome_or, Bool.or_eq_true, or_and_right, exists_or, or_assoc]
    exact or_congr_right or_comm

theorem StoresOnly.congr {s t : State} {f g : Word → Option Word} (h : StoresOnly s t f) (hfg : ∀ addr, f addr = g addr) :
    StoresOnly s t g :=
  funext hfg ▸ h

/-- What is stored is a matter of memory and dirty flags alone. -/
theorem StoresOnly.of_same_memory {s s' t t' : State} {f : Word → Option Word} (h : StoresOnly s t f)
    (hsm : s'.mem = s.mem) (hsd : s'.dirty = s.dirty) (htm : t'.mem = t.mem) (htd : t'.dirty = t.dirty) :
    StoresOnly s' t' f where
  mem addr := by rw [State.read_congr htm, State.read_congr hsm, h.mem]
  dirty r := by rw [State.isDirty_congr htd, State.isDirty_congr hsd, h.dirty]

/-! ### Load -/

/-- R64: the first word goes to the base, the others from the cell after it; at most 65536 of them do not reach the base
again. -/
theorem loaded_cons {w : Word} {ws : List Word} (hlength : ws.length < 65536) (base addr : Word) :
    (ws[(addr - (base + 1)).toNat]?).or (if addr = base then some w else none) = (w :: ws)[(addr - base).toNat]? := by
  by_cases he : addr = base
  · have hlast : (addr - (base + 1)).toNat = 65535 := by bv_omega
    have hfirst : (addr - base).toNat = 0 := by bv_omega
    rw [if_pos he, hlast, hfirst, List.getElem?_eq_none (by omega)]
    rfl
  · have hnext : (addr - base).toNat = (addr - (base + 1)).toNat + 1 := by bv_omega
    rw [if_neg he, hnext, List.getElem?_cons_succ, Option.or_none]

theorem State.loadFrom_stores {s : State} (h : s.tablesWf = true) (base : Word) {words : List Word}
    (hlength : words.length ≤ 65536) :
    StoresOnly s (s.loadFrom base words) fun addr => words[(addr - base).toNat]? := by
  induction words generalizing s base with
  | nil => exact StoresOnly.refl s
  | cons w ws ih =>
    have hrest := ih (s.write_tablesWf h base w) (base + 1) (Nat.le_of_succ_le hlength)
    exact ((s.storesOnly_write h base w).trans hrest).congr (loaded_cons hlength base)

/-- R64: the words past the 65536th have no cell. -/
theorem State.load_stores {s : State} (h : s.tablesWf = true) (base : Word) (words : List Word) :
    StoresOnly s (s.load base words) fun addr => words[(addr - base).toNat]? := by
  have hlength : (words.take Config.memoryWords).length ≤ 65536 := List.length_take_le _ _
  exact (State.loadFrom_stores h base hlength).congr fun addr =>
    List.getElem?_take_of_lt (toNat_lt_memoryWords (addr - base))

/-- Settles O24. -/
theorem loadWritesItsWords : Obligations.LoadWritesItsWords := by
  unfold Obligations.LoadWritesItsWords
  exact fun _ base words h => State.load_stores h base words

/-- R346: the image from address 0 up. -/
theorem State.loadRom_stores {s : State} (h : s.tablesWf = true) (image : List Word) :
    StoresOnly s (s.loadRom image) fun addr => image[addr.toNat]? :=
  ((State.load_stores h 0 image).congr fun addr => by simp).of_same_memory rfl rfl rfl rfl

/-! ### The queue -/

/-- R285, R286: a queue that nothing drains fills up in order. -/
theorem State.foldl_raise {s : State} (hia : s.ia ≠ 0) (hqueue : s.iq.length ≤ Config.queueCapacity) (ms : List Word) :
    ms.foldl State.raise s = { s with iq := (s.iq ++ ms).take Config.queueCapacity } := by
  induction ms generalizing s with
  | nil => rw [List.foldl_nil, List.append_nil, List.take_of_length_le hqueue]
  | cons m ms ih =>
    rw [List.foldl_cons]
    by_cases hroom : s.iq.length < Config.queueCapacity
    · rw [State.raise_of_accepts hia hroom, ih (s := { s with iq := s.iq ++ [m] }) hia (by simpa using hroom)]
      simp
    · have hfull : Config.queueCapacity = s.iq.length := by omega
      rw [State.raise_of_queue_full hfull.le, ih hia hqueue, hfull, List.take_left, List.take_left]

/-- Settles O28: the empty queue filled, and the drop where interrupts have no handler. -/
theorem queueSaturatesAt256 : Obligations.QueueSaturatesAt256 := by
  unfold Obligations.QueueSaturatesAt256
  intro s ms
  constructor
  · intro hia hempty
    rw [State.foldl_raise hia (by simp [hempty]), hempty]
    rfl
  · intro hia
    induction ms with
    | nil => rfl
    | cons m ms ih => rw [List.foldl_cons, State.raise_of_ia_eq_zero hia, ih]

/-! ### Delivery -/

theorem State.deliver_of_cons {s : State} {m : Word} {rest : List Word} (hq : s.iq = m :: rest) :
    s.deliver = { s with iq := rest }.enterHandler m := by
  simp [State.deliver, hq]

/-- Two stores to different cells, in either order. -/
theorem or_of_ne_cells {p q : Word} (hne : q ≠ p) (v w : Word) (addr : Word) :
    (if addr = q then some w else none).or (if addr = p then some v else none) =
      if addr = p then some v else if addr = q then some w else none := by
  by_cases hp : addr = p
  · simp [hp, hne.symm]
  · simp [hp]

/-- R292: the old pc one cell below the old top, the old A below that. -/
theorem State.enterHandler_stores {s : State} (h : s.tablesWf = true) (m : Word) :
    StoresOnly s (s.enterHandler m) fun addr =>
      if addr = s.sp - 1 then some s.pc else if addr = s.sp - 2 then some (s.reg .a) else none := by
  have hpc : StoresOnly s ({ s with iqEnable := false }.push s.pc) fun addr =>
      if addr = s.sp - 1 then some s.pc else none :=
    (State.push_stores (s := { s with iqEnable := false }) h s.pc).of_same_memory rfl rfl rfl rfl
  have ha := State.push_stores (State.push_tablesWf { s with iqEnable := false } h s.pc) (s.reg .a)
  have hsp : s.sp - 1 - 1 = s.sp - 2 := by bv_omega
  have hne : s.sp - 2 ≠ s.sp - 1 := by bv_omega
  refine ((hpc.trans ha).congr fun addr => ?_).of_same_memory rfl rfl rfl rfl
  rw [State.push_sp, hsp]
  exact or_of_ne_cells hne _ _ addr

/-- Settles O11: `enterHandler` for the queue's head. -/
theorem deliveryEntersTheHandler : Obligations.DeliveryEntersTheHandler := by
  unfold Obligations.DeliveryEntersTheHandler
  intro s m rest h hq
  have hsp : s.sp - 1 - 1 = s.sp - 2 := by bv_omega
  rw [State.deliver_of_cons hq, ← hsp]
  refine ⟨rfl, ?_⟩
  rw [hsp]
  exact (State.enterHandler_stores (s := { s with iq := rest }) h m).of_same_memory rfl rfl rfl rfl

end Sys2Proof.Machine
end

section
/-! The special instructions (spec/44_special_control.md, spec/45_special_hardware.md, spec/46_special_misc.md): the whole
next state of each, from the template of R230, and what an HWI's handler may do (R255). -/

namespace Sys2Proof.Machine

/-! ### Interrupt control -/

/-- R286: `Raise` changes the queue alone. -/
theorem State.raise_eq (s : State) (m : Word) : s.raise m =
    { s with iq := if s.ia ≠ 0 ∧ s.iq.length < Config.queueCapacity then s.iq ++ [m] else s.iq } := by
  rw [State.raise]
  split_ifs <;> rfl

/-- Settles O50: the template of R230 around `Raise`. -/
theorem intRaisesItsOperand : Obligations.IntRaisesItsOperand := by
  unfold Obligations.IntRaisesItsOperand
  intro a s
  have hrun : exec (.int a) s = _ :=
    runSpecial_eq (fun va t => t.raise va) s.config.waitCost.int a s fun v t => t.raise_config v
  rw [hrun, waitAfter_eq_charge, State.raise_eq]
  rfl

/-- Settles O52: the template of R230 around the write of one field. -/
theorem iasSetsIaAndIaqSetsEnable : Obligations.IasSetsIaAndIaqSetsEnable := by
  unfold Obligations.IasSetsIaAndIaqSetsEnable
  intro a s
  rw [waitAfter_eq_charge, waitAfter_eq_charge]
  exact ⟨runSpecial_eq (fun va t => { t with ia := va }) s.config.waitCost.ias a s fun _ _ => rfl,
    runSpecial_eq (fun va t => { t with iqEnable := va == 0 }) s.config.waitCost.iaq a s fun _ _ => rfl⟩

/-- R238: the whole next state of RFI. -/
theorem exec_rfi (a : Operand) (s : State) :
    exec (.rfi a) s = .next { s with
      iqEnable := true, regs := s.regs.set .a (s.read (spAfterPop a s.sp)), pc := s.read (spAfterPop a s.sp + 1),
      sp := spAfterPop a s.sp + 2, wait := waitAfter s.config.waitCost.rfi a s } := by
  have hsp : spAfterPop a s.sp + 2 = spAfterPop a s.sp + 1 + 1 := by
    rw [BitVec.add_assoc]
    rfl
  rw [waitAfter_eq_charge, hsp]
  exact runSpecial_eq (fun _ t => t.returnFromInterrupt) s.config.waitCost.rfi a s fun _ t => t.returnFromInterrupt_config

/-- Settles O53. -/
theorem rfiRestoresFromTheStack : Obligations.RfiRestoresFromTheStack := by
  unfold Obligations.RfiRestoresFromTheStack
  exact exec_rfi

/-- Settles O58: the template of R230 around nothing, or around the halt. -/
theorem logAndBrkAreNoOpsAndHltHalts : Obligations.LogAndBrkAreNoOpsAndHltHalts := by
  unfold Obligations.LogAndBrkAreNoOpsAndHltHalts
  intro a s
  rw [waitAfter_eq_charge, waitAfter_eq_charge, waitAfter_eq_charge]
  exact ⟨runSpecial_eq (fun _ t => t) s.config.waitCost.log a s fun _ _ => rfl,
    runSpecial_eq (fun _ t => t) s.config.waitCost.brk a s fun _ _ => rfl,
    runSpecial_eq (fun _ t => { t with halted := true }) s.config.waitCost.hlt a s fun _ _ => rfl⟩

/-- Settles O59: each of the 24 arms is the fatal halt. -/
theorem unassignedEncodingsClearRunning : Obligations.UnassignedEncodingsClearRunning := by
  unfold Obligations.UnassignedEncodingsClearRunning
  intro b a s halted
  exact ⟨rfl, rfl, rfl, rfl, rfl, rfl, rfl, rfl, rfl, rfl, rfl, rfl, rfl, rfl, rfl, rfl, rfl, rfl, rfl, rfl, rfl, rfl, rfl,
    rfl⟩

/-! ### The device table and the identity record -/

/-- Settles O54: the count fits a word. -/
theorem hwnStoresTheDeviceCount : Obligations.HwnStoresTheDeviceCount := by
  unfold Obligations.HwnStoresTheDeviceCount
  intro a s hw hcount
  obtain ⟨t, hexec, heffect⟩ := runSpecialWrite_effect (BitVec.ofNat 16 s.deviceCount) s.config.waitCost.hwn a hw
  refine ⟨t, _, hexec, ?_, heffect⟩
  rw [BitVec.toNat_ofNat]
  exact Nat.mod_eq_of_lt (Nat.lt_succ_of_le hcount)

/-- R252: the five identity words, by the halves of the two 32-bit numbers. -/
theorem State.showIdentity_eq (s : State) (d : Identity) :
    s.showIdentity d = { s with regs := { s.regs with
      a := d.deviceId.setWidth 16, b := (d.deviceId >>> 16).setWidth 16, c := d.version,
      x := d.manufacturerId.setWidth 16, y := (d.manufacturerId >>> 16).setWidth 16 } } := by
  have hlow : ∀ v : BitVec 32, v.extractLsb' 0 16 = v.setWidth 16 := fun _ => rfl
  have hhigh : ∀ v : BitVec 32, v.extractLsb' 16 16 = (v >>> 16).setWidth 16 := fun _ => rfl
  simp only [State.showIdentity, hlow, hhigh]
  rfl

/-- Settles O55: the template of R230 around the five writes. -/
theorem hwqShowsTheIdentity : Obligations.HwqShowsTheIdentity := by
  unfold Obligations.HwqShowsTheIdentity
  intro a s k d hk hd
  have hquery : State.queryDevice { s with sp := spAfterPop a s.sp } (s.valueA a) =
      State.showIdentity { s with sp := spAfterPop a s.sp } d.identity := by
    have hat : State.deviceAt { s with sp := spAfterPop a s.sp } (s.valueA a) = some k := hk
    simp [State.queryDevice, hat, State.identityOf, hd]
  have hrun : exec (.hwq a) s = _ :=
    runSpecial_eq (fun va t => t.queryDevice va) s.config.waitCost.hwq a s fun v t => t.queryDevice_config v
  rw [hrun, hquery, State.showIdentity_eq, waitAfter_eq_charge]
  rfl

end Sys2Proof.Machine
end

section
/-! HWI (spec/45_special_hardware.md R253, R255): the handler of a device, the effect that spec/60_exceptions.md R310, R314
and R315 give a command inside it, and what it leaves alone. -/

namespace Sys2Proof.Machine

/-! ### The stated effect of a command -/

/-- R310: only a ROM with an image has that image for its behaviour. -/
theorem DeviceKind.eq_rom_of_fixed {kind : DeviceKind} {image : List Word} (h : kind.fixed = .rom image) :
    kind = .rom image := by
  cases kind <;> cases h
  rfl

/-- R44: a device's acts leave a ROM what it is. -/
theorem State.rom_of_fixed {s t : State} (h : t.devices.map Device.fixed = s.devices.map Device.fixed) {node : Nat}
    {image : List Word} (hrom : s.devices[node]?.map Device.kind = some (.rom image)) :
    t.devices[node]?.map Device.kind = some (.rom image) := by
  have hfixed : t.devices[node]?.map Device.fixed = s.devices[node]?.map Device.fixed := by
    rw [← List.getElem?_map, h, List.getElem?_map]
  obtain ⟨d, hd, hkind⟩ := Option.map_eq_some_iff.mp hrom
  rw [hd, Option.map_some] at hfixed
  obtain ⟨d', hd', hsame⟩ := Option.map_eq_some_iff.mp hfixed
  have hkinds : d'.kind.fixed = .rom image := by
    rw [show d'.kind.fixed = d.kind.fixed from congrArg (fun p => p.2.2) hsame, hkind]
    rfl
  rw [hd', Option.map_some, DeviceKind.eq_rom_of_fixed hkinds]

/-- R310: a ROM's load command. -/
theorem State.obey_loadImage {s : State} {node : Nat} {image : List Word}
    (hrom : s.devices[node]?.map Device.kind = some (.rom image)) (after : List DeviceOp) :
    s.obey node (some .loadImage) after = s.loadRom image := by
  simp only [State.obey, hrom]

/-- R41: the controller at an index after its kind is set. -/
theorem State.storageAt_setKind {s : State} {node : Nat} {c : Storage} (h : s.storageAt node = some c) (c' : Storage) :
    (s.setKind node (.storage c')).storageAt node = some c' := by
  rw [State.storageAt_eq_some] at h ⊢
  obtain ⟨d, hd, -⟩ := Option.map_eq_some_iff.mp h
  simp [State.setKind, hd]

/-- R315: the transfer that a controller begins, the words of its window given. -/
def Storage.begun (c : Storage) (kind : TransferKind) (sector : Nat) (base : Word) (words : Block) : Transfer :=
  { kind, sector, window := base, remaining := c.settings.serviceTime, completed := false,
    block := match kind with
      | .reading => none
      | .writing => some words }

theorem State.beginTransfer_eq (s : State) (node : Nat) (c : Storage) (kind : TransferKind) (sector : Nat) (base : Word) :
    s.beginTransfer node c kind sector base =
      let busy := s.setKind node (.storage { c with transfer := some (c.begun kind sector base (s.window base)) })
      if c.settings.acknowledges then busy.raise c.messages.acknowledge else busy := by
  cases kind <;> rfl

section
variable {s : State} {node : Nat} {c : Storage} (hc : s.storageAt node = some c)
include hc

/-- R314: a transfer command that finds no medium. -/
theorem State.obey_transfer_noMedium (hm : c.medium = none) (kind : TransferKind) (sector : Nat) (base : Word)
    (after : List DeviceOp) : s.obey node (some (.transfer kind sector base)) after =
      s.setKind node (.storage (c.reportNoMedium kind)) := by
  simp [State.obey, (s.storageAt_eq_some).mp hc, State.transferCommand, hm]

/-- R315: a transfer command that an Idle controller takes. -/
theorem State.obey_transfer_idle (hm : c.medium.isSome = true) (ht : c.transfer = none) (kind : TransferKind)
    (sector : Nat) (base : Word) (after : List DeviceOp) :
    s.obey node (some (.transfer kind sector base)) after = (s.beginTransfer node c kind sector base).deviceOps node after := by
  have hsome : c.medium.isNone = false := by simpa using hm
  simp [State.obey, (s.storageAt_eq_some).mp hc, State.transferCommand, hsome, ht, hm]

/-- R319: no command touches a transfer in flight or the medium. -/
theorem State.obey_busy (ht : c.transfer.isSome = true) (command : Option DeviceCommand) (after : List DeviceOp) :
    ∃ c', (s.obey node command after).storageAt node = some c' ∧ c'.transfer = c.transfer ∧ c'.medium = c.medium := by
  match command with
  | none | some .loadImage => exact ⟨c, by simp [State.obey, (s.storageAt_eq_some).mp hc, hc], rfl, rfl⟩
  | some (.transfer kind sector base) =>
    cases hm : c.medium with
    | none =>
      rw [State.obey_transfer_noMedium hc hm, State.storageAt_setKind hc]
      exact ⟨_, rfl, by cases kind <;> rfl, by cases kind <;> exact hm⟩
    | some medium =>
      refine ⟨c, ?_, rfl, hm⟩
      simp [State.obey, (s.storageAt_eq_some).mp hc, State.transferCommand, hm, ht, hc]

/-- R315: the controller after it has begun a transfer. -/
theorem State.storageAt_beginTransfer (kind : TransferKind) (sector : Nat) (base : Word) :
    (s.beginTransfer node c kind sector base).storageAt node =
      some { c with transfer := some (c.begun kind sector base (s.window base)) } := by
  have hset := State.storageAt_setKind hc { c with transfer := some (c.begun kind sector base (s.window base)) }
  rw [State.storageAt_eq_some] at hset ⊢
  rw [State.beginTransfer_eq]
  split_ifs
  · rw [State.raise_devices]
    exact hset
  · exact hset

end

/-- R286: after a raise the message is queued, or there is no handler, or the queue is full. -/
theorem State.raise_outcome (s : State) (m : Word) :
    m ∈ (s.raise m).iq ∨ s.ia = 0 ∨ Config.queueCapacity ≤ (s.raise m).iq.length := by
  by_cases hia : s.ia = 0
  · exact .inr (.inl hia)
  · by_cases hroom : s.iq.length < Config.queueCapacity
    · rw [State.raise_of_accepts hia hroom]
      exact .inl (by simp)
    · rw [State.raise_of_queue_full (not_lt.mp hroom)]
      exact .inr (.inr (not_lt.mp hroom))

/-- R315: the acknowledgement of a transfer that has begun, whatever the device does after it. -/
theorem State.beginTransfer_acknowledged (s : State) (node : Nat) {c : Storage} (ha : c.settings.acknowledges = true)
    (kind : TransferKind) (sector : Nat) (base : Word) (after : List DeviceOp) :
    let t := (s.beginTransfer node c kind sector base).deviceOps node after
    c.messages.acknowledge ∈ t.iq ∨ t.ia = 0 ∨ 256 ≤ t.iq.length := by
  intro t
  let busy := s.setKind node (.storage { c with transfer := some (c.begun kind sector base (s.window base)) })
  have hbegin : s.beginTransfer node c kind sector base = busy.raise c.messages.acknowledge := by
    rw [State.beginTransfer_eq, if_pos ha]
  have hlater : (busy.raise c.messages.acknowledge).iq <+: t.iq := hbegin ▸ State.deviceOps_iq_prefix _ node after
  have hia : t.ia = busy.ia := by simp [t, busy]
  rcases busy.raise_outcome c.messages.acknowledge with hmem | hzero | hfull
  · exact .inl (hlater.subset hmem)
  · exact .inr (.inl (hia.trans hzero))
  · exact .inr (.inr (hfull.trans hlater.length_le))

/-! ### The handler -/

/-- R255, R310, R314, R315: everything the handler leaves, for any command and any acts beside it. -/
theorem State.handlerEffect {s : State} (hw : s.tablesWf = true) (node : Nat) (command : Option DeviceCommand)
    (before after : List DeviceOp) :
    HandlerEffect s ({ s with deviceDraws := s.deviceDraws + 1 }.deviceOps node before)
      (s.runHandler node command before after) node command := by
  obtain ⟨hsp, hex, hia, hen, hsk, hha, hru, hle, hcf, hdr, hgu, hiq, hwt, hfx⟩ :=
    s.runHandler_frame node command before after
  have hmid : ({ s with deviceDraws := s.deviceDraws + 1 }.deviceOps node before).devices.map Device.fixed =
      s.devices.map Device.fixed := State.deviceOps_fixed _ node before
  have hmidWf := State.deviceOps_tablesWf { s with deviceDraws := s.deviceDraws + 1 } hw node before
  have hstorage : ∀ c, s.storageAt node = some c →
      ∃ c', ({ s with deviceDraws := s.deviceDraws + 1 }.deviceOps node before).storageAt node = some c' ∧
        c'.settings = c.settings ∧ c'.medium = c.medium ∧ c'.transfer = c.transfer := fun c hc =>
    State.deviceOps_storage { s with deviceDraws := s.deviceDraws + 1 } before hc
  refine ⟨hsp, hex, hia, hen, hsk, hha, hru, hle, hcf, hgu, hiq, hwt, hfx, childrenOf_congr hfx .processor, ?_, hdr,
    ?_, ?_, ?_, ?_⟩
  case refine_1 =>
    intro k hk
    exact (State.obey_others _ node command after hk).trans (State.deviceOps_others _ node before hk)
  case refine_2 =>
    rintro d image hd hkind rfl
    have hrom := State.rom_of_fixed hmid (image := image) (node := node) (by rw [hd, Option.map_some, hkind])
    rw [State.runHandler, State.obey_loadImage hrom]
    have hstores := State.loadRom_stores hmidWf image
    refine ⟨rfl, fun addr v hv => ⟨?_, (hstores.dirty _).mpr (.inr ⟨addr, by simp [hv], rfl⟩)⟩⟩
    rw [hstores.mem, hv, Option.getD_some]
  case refine_3 =>
    rintro c kind sector base hc rfl hm
    obtain ⟨c', hc', hsettings, hmedium, htransfer⟩ := hstorage c hc
    rw [State.runHandler, State.obey_transfer_noMedium hc' (hmedium.trans hm), State.storageAt_setKind hc']
    cases kind with
    | reading => exact ⟨_, rfl, htransfer, hmedium.trans hm, rfl⟩
    | writing => exact ⟨_, rfl, htransfer, hmedium.trans hm, congrArg StorageSettings.noMediumOnWrite hsettings⟩
  case refine_4 =>
    rintro c kind sector base hc rfl hm ht
    obtain ⟨m, hc', hsettings, hmedium, htransfer⟩ := hstorage c hc
    rw [State.runHandler, State.obey_transfer_idle hc' (hmedium ▸ hm) (htransfer.trans ht)]
    obtain ⟨c'', hc'', -, hmedium'', htransfer''⟩ :=
      State.deviceOps_storage _ after (State.storageAt_beginTransfer hc' kind sector base)
    refine ⟨c'', m, hc'', hc', hmedium''.trans hmedium, htransfer''.trans ?_, fun ha => ?_⟩
    · rw [← hsettings]
      cases kind <;> rfl
    · exact State.beginTransfer_acknowledged _ node (hsettings ▸ ha) kind sector base after
  case refine_5 =>
    intro c hc ht
    obtain ⟨c', hc', -, hmedium, htransfer⟩ := hstorage c hc
    obtain ⟨c'', hc'', htransfer'', hmedium''⟩ := State.obey_busy hc' (htransfer ▸ ht) command after
    exact ⟨c'', hc'', htransfer''.trans htransfer, hmedium''.trans hmedium⟩

/-- Settles O56: the template of R230 around the handler, and the handler's effect. -/
theorem hwiRunsTheDevice : Obligations.HwiRunsTheDevice := by
  unfold Obligations.HwiRunsTheDevice
  intro a s k hw hk s0
  have hrun : exec (.hwi a) s = .next ((s0.interruptDevice (s.valueA a)).addWait (s.config.waitCost.hwi + s.extraCost a)) :=
    runSpecial_eq (fun va t => t.interruptDevice va) s.config.waitCost.hwi a s fun v t => t.interruptDevice_config v
  have hinterrupt : s0.interruptDevice (s.valueA a) = s0.hardwareInterrupt k := by
    have hat : s0.deviceAt (s.valueA a) = some k := hk
    simp only [State.interruptDevice, hat]
  refine ⟨⟨s0.hardwareInterrupt k, rfl, ?_⟩, State.handlerEffect (s := s0) hw k⟩
  have hconfig : (s0.hardwareInterrupt k).config = s.config := hinterrupt ▸ s0.interruptDevice_config _
  have hcharge : waitAfter s.config.waitCost.hwi a (s0.hardwareInterrupt k) =
      (s0.hardwareInterrupt k).wait + (s.config.waitCost.hwi + s.extraCost a) := by
    rw [waitAfter_eq_charge, State.extraCost, State.extraCost, hconfig]
  rw [hrun, hinterrupt, hcharge, State.addWait]

end Sys2Proof.Machine
end

section
/-! The instruction cycle and the processor loop (spec/40_instruction_cycle.md R120 to R124, spec/60_exceptions.md R290 to
R296, spec/70_reset_and_hazards.md R351 to R357): what one step does in each state, and what a `Tick` call adds up to. -/

namespace Sys2Proof.Machine

/-! ### Fetching -/

/-- R121: the instruction fetched is the one its three words decode to, however long it is. -/
theorem State.fetched_of_decode {s : State} {i : Instr} {rest : List Word}
    (h : decode s.config.specialNumbers [s.read s.pc, s.read (s.pc + 1), s.read (s.pc + 2)] = .ok (i, rest)) :
    s.fetched = i := by
  have hlong : ¬ [s.read (s.pc + 1), s.read (s.pc + 2)].length + 1 < lengthOfWord (s.read s.pc) :=
    not_lt.mpr (lengthOfWord_le _)
  rw [decode, if_neg hlong] at h
  cases h
  rfl

theorem length_encode (numbers : SpecialNumbers) (i : Instr) : (encode numbers i).length = i.wordCount :=
  Nat.add_comm _ _

/-- R92, R121: pc moves by what the length rule says of the word at it. -/
theorem State.fetched_wordCount (s : State) : s.fetched.wordCount = lengthOfWord (s.read s.pc) := by
  rw [← length_encode s.config.specialNumbers, State.fetched, length_encode_decodeAt]

/-- R124, R268: no unassigned encoding is a conditional. -/
theorem isConditional_of_unassigned {i : Instr} (h : unassigned i = true) : i.isConditional = false := by
  have hbasic : ∀ o : BitVec 5, [0x18#5, 0x19#5, 0x1c#5, 0x1d#5].contains o = true →
      (decide (0x10#5 ≤ o) && decide (o ≤ 0x17#5)) = false := by decide
  unfold unassigned at h
  unfold Instr.isConditional
  cases hf : i.fields with
  | basic o b a =>
    rw [hf] at h
    exact hbasic o h
  | special so a => rfl

/-! ### A stopped machine and an owed cycle -/

theorem step_of_not_running {s : State} (h : s.running = false) : step s = .next s := by
  rw [step_eq, if_pos h]

theorem State.tick_of_not_running {s : State} (h : s.running = false) (n : Nat) : s.tick n = .next s := by
  simp [State.tick, h]

/-- R351: Tick on a running machine. -/
theorem State.tick_of_running {s : State} (h : s.running = true) (n : Nat) :
    s.tick n = iterations ((n + s.leftover) / s.config.rateDivisor)
      { s with leftover := (n + s.leftover) % s.config.rateDivisor } := by
  simp [State.tick, h]

/-- Settles O9: the running test comes first, in both. -/
theorem stoppedMachineIsFrozen : Obligations.StoppedMachineIsFrozen := by
  unfold Obligations.StoppedMachineIsFrozen
  exact fun _ h => ⟨step_of_not_running h, State.tick_of_not_running h⟩

/-- Settles O8: the second test of an iteration. -/
theorem stepPaysOneWaitCycle : Obligations.StepPaysOneWaitCycle := by
  unfold Obligations.StepPaysOneWaitCycle
  intro s hrunning hwait
  rw [step_eq, if_neg (by simp [hrunning]), if_pos hwait]

/-! ### Executing and skipping -/

/-- Settles O6: the fetch, then the instruction itself. -/
theorem stepRunsDecodedInstruction : Obligations.StepRunsDecodedInstruction := by
  unfold Obligations.StepRunsDecodedInstruction
  intro s i rest hrunning hwait hdeliverable hhalted hskip hdecode
  obtain rfl := State.fetched_of_decode hdecode
  rw [step_executes hrunning hwait hdeliverable hhalted, executeOne_exec hskip, State.afterFetch]

/-- R290: a pending skip holds delivery off. -/
theorem State.deliverable_of_skipping {s : State} (h : s.skipping = true) : s.deliverable = false := by
  simp [State.deliverable, h]

/-- Settles O7: a pending skip delivers nothing; the rest is the skip test of R124. -/
theorem skippingPassesOverNonConditionals : Obligations.SkippingPassesOverNonConditionals := by
  unfold Obligations.SkippingPassesOverNonConditionals
  intro s hrunning hwait hhalted hskipping i past
  have hstep := step_executes hrunning hwait (State.deliverable_of_skipping hskipping) hhalted
  have hpast : past = s.pc + BitVec.ofNat 16 s.fetched.wordCount := by
    rw [← length_encode s.config.specialNumbers]
    rfl
  refine ⟨fun hc => ?_, fun hc => ?_⟩
  · have hfetched : s.fetched.isConditional = false := hc
    rw [hstep, executeOne_skip hskipping hc, State.afterFetch, hpast, hfetched]
  · have hfetched : s.fetched.isConditional = true := hc
    rw [hstep, executeOne_exec (.inr hc), State.afterFetch, hpast, hfetched]
    rfl

/-- Settles O13: the fatal halt past the instruction, then a stopped machine. -/
theorem unassignedEncodingEndsTheRun : Obligations.UnassignedEncodingEndsTheRun := by
  unfold Obligations.UnassignedEncodingEndsTheRun
  intro s hrunning hwait hdeliverable hhalted hskipping hun
  have hstep : step s = .next s.afterFetch.fatalHalt := by
    rw [step_executes hrunning hwait hdeliverable hhalted, executeOne_exec (.inl hskipping), exec_of_unassigned hun]
  refine ⟨_, hstep, ?_, step_of_not_running rfl, State.tick_of_not_running rfl⟩
  rw [← State.fetched_wordCount, State.fatalHalt, State.afterFetch, isConditional_of_unassigned hun]

/-! ### Halted machines -/

/-- R355: with nothing to deliver, a halted machine's iteration exits. -/
theorem iteration_of_halted {s : State} (hrunning : s.running = true) (hwait : s.wait = 0) (hhalted : s.halted = true)
    (hdeliverable : s.deliverable = false) : iteration s = .next (.exit, s) := by
  simp [iteration, hrunning, hwait, State.attemptDelivery_of_not hdeliverable, hhalted]

/-- R355: an exit drops the rest of the budget. -/
theorem iterations_of_exit {s : State} (h : iteration s = .next (.exit, s)) (k : Nat) : iterations k s = .next s := by
  cases k with
  | zero => rfl
  | succ k => simp only [iterations, h]

/-- R267, R290: a machine halted for good has nothing to deliver. -/
theorem State.deliverable_of_haltedForGood {s : State} (h : s.haltedForGood) : s.deliverable = false := by
  obtain ⟨-, ⟨-, hempty⟩ | hoff⟩ := h
  · simp [State.deliverable, hempty]
  · simp [State.deliverable, hoff]

/-- Settles O10. -/
theorem haltedMachineWaitsForDelivery : Obligations.HaltedMachineWaitsForDelivery := by
  unfold Obligations.HaltedMachineWaitsForDelivery
  intro s hrunning hwait hhalted
  refine ⟨fun hdeliverable => ?_, fun hgood n => ?_⟩
  · exact (iteration_exit (iteration_of_halted hrunning hwait hhalted hdeliverable)).2
  · rw [State.tick_of_running hrunning]
    have hdeliverable := State.deliverable_of_haltedForGood hgood
    have hexit := iteration_of_halted (s := { s with leftover := (n + s.leftover) % s.config.rateDivisor })
      hrunning hwait hhalted hdeliverable
    exact iterations_of_exit hexit _

/-! ### Delivery -/

/-- R352, R355: an iteration that pays nothing and delivers nothing stays halted or executes. -/
theorem step_of_not_deliverable {s : State} (hrunning : s.running = true) (hwait : s.wait = 0)
    (hdeliverable : s.deliverable = false) : step s = if s.halted = true then .next s else executeOne s := by
  rw [step_eq, if_neg (by simp [hrunning]), if_neg (by simp [hwait]), State.attemptDelivery_of_not hdeliverable]

/-- R292: what a handler's first iteration finds: delivery off and the halt over. -/
theorem State.deliver_flags {s : State} (h : s.iq ≠ []) : s.deliver.iqEnable = false ∧ s.deliver.halted = false := by
  obtain ⟨m, rest, hq⟩ := List.exists_cons_of_ne_nil h
  rw [State.deliver_of_cons hq]
  exact ⟨rfl, rfl⟩

/-- R354 (D37): delivery takes no iteration of its own. -/
theorem step_of_deliverable {s : State} (hrunning : s.running = true) (hwait : s.wait = 0)
    (hdeliverable : s.deliverable = true) : step s = step s.deliver := by
  obtain ⟨-, -, hqueue, -⟩ := s.deliverable_iff.mp hdeliverable
  obtain ⟨hoff, hawake⟩ := State.deliver_flags hqueue
  have hnone : s.deliver.deliverable = false := by simp [State.deliverable, hoff]
  rw [step_executes (s := s.deliver) (by simpa using hrunning) (by simpa using hwait) hnone hawake, step_eq,
    if_neg (by simp [hrunning]), if_neg (by simp [hwait]), State.attemptDelivery_of hdeliverable,
    if_neg (by simp [hawake])]

/-- R255: no instruction takes a message out of the queue. -/
theorem executeOne_iq_isPrefix {s t : State} (h : executeOne s = .next t) : s.iq <+: t.iq := by
  obtain ⟨-, -, hskip⟩ | hexec := executeOne_cases s
  · rw [hskip] at h
    cases h
    exact List.prefix_rfl
  · have hframe := exec_frame (hexec ▸ h)
    exact hframe.iq

/-- R222, R296: after a conditional the machine is inside the unit, where the parameter counts units. -/
theorem executeOne_insideUnit {s t : State} (hunit : s.config.interruptUnit = .wholeUnit)
    (hc : s.fetched.isConditional = true) (h : executeOne s = .next t) : t.deliverable = false := by
  rw [executeOne_exec (.inr hc)] at h
  have hframe := exec_frame h
  have hguarding : t.guarding = true := hframe.guarding.trans hc
  have hconfig : t.config.interruptUnit = .wholeUnit := hframe.config ▸ hunit
  simp [State.deliverable, t.insideUnit_iff.mpr ⟨hconfig, hguarding⟩]

/-- Settles O12: its condition is `State.deliverable`. -/
theorem deliveryPrecedesTheInstruction : Obligations.DeliveryPrecedesTheInstruction := by
  unfold Obligations.DeliveryPrecedesTheInstruction
  intro s hrunning hwait may
  have hmay : ¬ may → s.deliverable = false := fun h => Bool.eq_false_iff.mpr fun hd => h (s.deliverable_iff.mp hd)
  refine ⟨fun h => step_of_deliverable hrunning hwait (s.deliverable_iff.mpr h), fun h t hstep => ?_,
    fun h hunit hhalted hc t hstep => ?_⟩
  · rw [step_of_not_deliverable hrunning hwait (hmay h)] at hstep
    split_ifs at hstep
    · cases hstep
      exact List.prefix_rfl
    · exact executeOne_iq_isPrefix hstep
  · rw [step_executes hrunning hwait (hmay h) hhalted] at hstep
    exact executeOne_insideUnit hunit hc hstep

/-- R21: writing a register twice, and then what it held, changes nothing. -/
theorem Regs.set_set_get (g : Regs) (r : Reg) (v : Word) : (g.set r v).set r (g.get r) = g := by
  cases r <;> rfl

/-- Settles O14: RFI pops the two words that `enterHandler_stores` pushed. -/
theorem deliveryThenRfiRestores : Obligations.DeliveryThenRfiRestores := by
  unfold Obligations.DeliveryThenRfiRestores
  intro s hw hdeliverable
  obtain ⟨-, -, hqueue, -⟩ := s.deliverable_iff.mp hdeliverable
  obtain ⟨m, rest, hq⟩ := List.exists_cons_of_ne_nil hqueue
  have hstores := State.enterHandler_stores (s := { s with iq := rest }) hw m
  have hsp : s.sp - 1 - 1 = s.sp - 2 := by bv_omega
  have hnext : s.sp - 2 + 1 = s.sp - 1 := by bv_omega
  have hup : s.sp - 2 + 2 = s.sp := by bv_omega
  have hne : s.sp - 2 ≠ s.sp - 1 := by bv_omega
  have hold : (State.enterHandler { s with iq := rest } m).read (s.sp - 2) = s.reg .a := by
    rw [hstores.mem, if_neg hne, if_pos rfl]
    rfl
  have hreturn : (State.enterHandler { s with iq := rest } m).read (s.sp - 1) = s.pc := by
    rw [hstores.mem, if_pos rfl]
    rfl
  rw [State.deliver_of_cons hq]
  refine ⟨_, exec_rfi _ _, ?_, ?_, ?_, rfl, rfl, rfl, rfl, by rw [hq]; rfl⟩
  · rw [spAfterPop, if_neg nofun, State.enterHandler_sp, hsp, hold]
    exact s.regs.set_set_get .a m
  · rw [spAfterPop, if_neg nofun, State.enterHandler_sp, hsp, hnext, hreturn]
  · rw [spAfterPop, if_neg nofun, State.enterHandler_sp, hsp, hup]

/-! ### Tick -/

theorem runSteps_of_fixed {s : State} (h : step s = .next s) (k : Nat) : runSteps k s = .next s := by
  induction k with
  | zero => rfl
  | succ k ih => simp only [runSteps, h, ih]

/-- R351, R355: a run of iterations is a run of steps, since a step after an exit changes nothing. -/
theorem iterations_eq_runSteps (k : Nat) (s : State) : iterations k s = runSteps k s := by
  induction k generalizing s with
  | zero => rfl
  | succ k ih =>
    cases hi : iteration s with
    | next p =>
      obtain ⟨signal, t⟩ := p
      have hstep : step s = .next t := by rw [step, hi, Iterated.state]
      cases signal with
      | goOn => simp only [iterations, hi, runSteps, hstep, ih]
      | exit =>
        obtain ⟨rfl, hfixed⟩ := iteration_exit hi
        rw [runSteps_of_fixed hfixed]
        simp only [iterations, hi]
    | fault r => cases r
    | refused r =>
      have hstep : step s = .refused r := by rw [step, hi, Iterated.state]
      simp only [iterations, hi, runSteps, hstep]

theorem executeOne_leftover {s t : State} (h : executeOne s = .next t) : t.leftover = s.leftover := by
  obtain ⟨-, -, hskip⟩ | hexec := executeOne_cases s
  · rw [hskip] at h
    cases h
    rfl
  · have hframe := exec_frame (hexec ▸ h)
    exact hframe.leftover

/-- R34: no step touches leftover. -/
theorem step_leftover {s t : State} (h : step s = .next t) : t.leftover = s.leftover := by
  rw [step_eq] at h
  split_ifs at h
  · cases h
    rfl
  · cases h
    rfl
  · cases h
    exact s.attemptDelivery_leftover
  · exact (executeOne_leftover h).trans s.attemptDelivery_leftover

/-- Settles O32: the remainder and the divisor are kept by every step. -/
theorem tickCarriesTheRemainder : Obligations.TickCarriesTheRemainder := by
  unfold Obligations.TickCarriesTheRemainder
  intro s n hrunning
  rw [State.tick_of_running hrunning]
  refine ⟨iterations_eq_runSteps _ _, fun t h => ?_⟩
  obtain ⟨hleftover, hconfig⟩ := iterations_keep (s := { s with leftover := (n + s.leftover) % s.config.rateDivisor })
    (P := fun u => u.leftover = (n + s.leftover) % s.config.rateDivisor ∧ u.config = s.config)
    (fun u v hu hstep => ⟨(step_leftover hstep).trans hu.1, (step_constants hstep).1.trans hu.2⟩) _ ⟨rfl, rfl⟩ h
  refine ⟨hleftover, fun hdivisor => ?_⟩
  rw [hleftover, hconfig]
  exact Nat.mod_lt _ hdivisor

end Sys2Proof.Machine
end

section
/-! Start, Stop and Reset (spec/70_reset_and_hazards.md R341 to R346), a ROM's load command (R310) and a storage
controller's report of a missing medium (spec/60_exceptions.md R314): what each device does on a broadcast, said once, and
what a broadcast adds up to. -/

namespace Sys2Proof.Machine

/-- Two states that agree in every field are equal. -/
theorem State.eq_of_fields {s t : State} (regs : s.regs = t.regs) (pc : s.pc = t.pc) (sp : s.sp = t.sp)
    (ex : s.ex = t.ex) (ia : s.ia = t.ia) (iq : s.iq = t.iq) (iqEnable : s.iqEnable = t.iqEnable)
    (skipping : s.skipping = t.skipping) (halted : s.halted = t.halted) (running : s.running = t.running)
    (wait : s.wait = t.wait) (leftover : s.leftover = t.leftover) (mem : s.mem = t.mem) (dirty : s.dirty = t.dirty)
    (syncCount : s.syncCount = t.syncCount) (subs : s.subs = t.subs) (devices : s.devices = t.devices)
    (config : s.config = t.config) (deviceDraws : s.deviceDraws = t.deviceDraws)
    (guarding : s.guarding = t.guarding) : s = t := by
  cases s
  cases t
  simp only [State.mk.injEq]
  exact ⟨regs, pc, sp, ex, ia, iq, iqEnable, skipping, halted, running, wait, leftover, mem, dirty, syncCount, subs,
    devices, config, deviceDraws, guarding⟩

/-! ### What a device does on a broadcast -/

/-- What each device's part of a broadcast keeps, the broadcast keeps. -/
theorem State.eachDevice_keep {P : State → Prop} {e : DeviceEvent} (h : ∀ s node, P s → P (s.deviceEvent e node))
    {s : State} (hs : P s) (l : List Nat) : P (s.eachDevice e l) := by
  induction l generalizing s with
  | nil => exact hs
  | cons node l ih => exact ih (h s node hs)

/-- R301: a response changes the devices and the draw counter. -/
theorem State.respond_eq (s : State) (e : DeviceEvent) (node : Nat) : s.respond e node =
    { s with devices := (s.respond e node).devices, deviceDraws := (s.respond e node).deviceDraws } := by
  apply State.eq_of_fields <;> simp

/-- R341, R342: a device that starts or stops changes its own state. -/
theorem State.deviceEvent_eq {e : DeviceEvent} (he : e ≠ .reset) (s : State) (node : Nat) : s.deviceEvent e node =
    { s with devices := (s.deviceEvent e node).devices, deviceDraws := (s.deviceEvent e node).deviceDraws } := by
  have hcases : s.deviceEvent e node = s ∨ s.deviceEvent e node = s.respond e node := by
    unfold State.deviceEvent
    split
    · exact .inl rfl
    · exact absurd rfl he
    · split
      · exact .inl rfl
      · exact .inr rfl
      · exact .inr rfl
    · split
      · exact .inl rfl
      · exact .inr rfl
      · exact .inr rfl
  obtain h | h := hcases
  · rw [h]
  · rw [h]
    exact s.respond_eq e node

/-- R341, R342: a broadcast of start or stop changes the devices and the draw counter. -/
theorem State.broadcast_eq {e : DeviceEvent} (he : e ≠ .reset) (s : State) : s.broadcast e =
    { s with devices := (s.broadcast e).devices, deviceDraws := (s.broadcast e).deviceDraws } := by
  refine State.eachDevice_keep
    (P := fun u => u = { s with devices := u.devices, deviceDraws := u.deviceDraws }) (fun u node hu => ?_) rfl _
  refine (State.deviceEvent_eq he u node).trans ?_
  exact congrArg (fun v : State => { v with devices := (u.deviceEvent e node).devices
                                            deviceDraws := (u.deviceEvent e node).deviceDraws }) hu

/-- R346: the image of the device at an index, if it is a ROM. -/
def State.romImageAt (s : State) (node : Nat) : Option (List Word) :=
  match s.devices[node]?.map Device.kind with
  | some (.rom image) => some image
  | _ => none

theorem State.romImages_eq (s : State) : s.romImages = (broadcastOrder s.devices).filterMap s.romImageAt := rfl

theorem State.romImageAt_eq_some {s : State} {node : Nat} {image : List Word} :
    s.romImageAt node = some image ↔ s.devices[node]?.map Device.kind = some (.rom image) := by
  unfold State.romImageAt
  cases s.devices[node]?.map Device.kind with
  | none => simp
  | some kind => cases kind <;> simp

/-- R44: what fixes the devices' behaviour fixes the images. -/
theorem State.romImageAt_congr {s t : State} (h : t.devices.map Device.fixed = s.devices.map Device.fixed) :
    t.romImageAt = s.romImageAt := by
  funext node
  apply Option.ext
  intro image
  rw [State.romImageAt_eq_some, State.romImageAt_eq_some]
  exact ⟨State.rom_of_fixed h.symm, State.rom_of_fixed h⟩

/-- R40, R301, R310: everything a device's reset can be: its subscriptions given up, then its image loaded or its own
state changed; nothing where there is no device. -/
theorem State.deviceEvent_reset_cases (s : State) (node : Nat) :
    (∃ image, s.romImageAt node = some image ∧
        s.deviceEvent .reset node = (s.releaseSubscriptions node).loadRom image) ∨
      (s.romImageAt node = none ∧ s.deviceEvent .reset node = (s.releaseSubscriptions node).respond .reset node) ∨
      (s.romImageAt node = none ∧ s.devices.length ≤ node ∧ s.deviceEvent .reset node = s) := by
  unfold State.deviceEvent State.romImageAt
  cases hd : s.devices[node]? with
  | none => exact .inr (.inr ⟨rfl, List.getElem?_eq_none_iff.mp hd, rfl⟩)
  | some d =>
    cases hkind : d.kind with
    | rom image => exact .inl ⟨image, by simp [hkind], by simp [hkind]⟩
    | storage c => exact .inr (.inl ⟨by simp [hkind], by simp [hkind]⟩)
    | other memory => exact .inr (.inl ⟨by simp [hkind], by simp [hkind]⟩)

/-! ### Memory, flags and pc over a reset -/

/-- R48: marking regions leaves the map of all dirty regions, which lists nothing, as it is. -/
theorem State.loadFrom_dirty_nil {s : State} (h : s.dirty = []) (base : Word) (words : List Word) :
    (s.loadFrom base words).dirty = [] := by
  induction words generalizing s base with
  | nil => exact h
  | cons w ws ih => exact ih (by rw [State.write_dirty, h]; rfl) _

theorem State.deviceEvent_reset_dirty {s : State} (h : s.dirty = []) (node : Nat) :
    (s.deviceEvent .reset node).dirty = [] := by
  obtain ⟨image, -, he⟩ | ⟨-, he⟩ | ⟨-, -, he⟩ := s.deviceEvent_reset_cases node
  · rw [he]
    exact State.loadFrom_dirty_nil (by simpa using h) 0 _
  · rw [he]
    simpa using h
  · rw [he, h]

/-- R346: a loaded image sets pc to 0, and no other reset moves it. -/
theorem State.deviceEvent_reset_pc {s : State} (h : s.pc = 0) (node : Nat) : (s.deviceEvent .reset node).pc = 0 := by
  obtain ⟨image, -, he⟩ | ⟨-, he⟩ | ⟨-, -, he⟩ := s.deviceEvent_reset_cases node
  · rw [he]
    rfl
  · rw [he]
    simpa using h
  · rw [he, h]

theorem State.deviceEvent_reset_mem {s : State} {node : Nat} (h : s.romImageAt node = none) :
    (s.deviceEvent .reset node).mem = s.mem := by
  obtain ⟨image, hrom, -⟩ | ⟨-, he⟩ | ⟨-, -, he⟩ := s.deviceEvent_reset_cases node
  · rw [h] at hrom
    cases hrom
  · rw [he]
    simp
  · rw [he]

theorem State.deviceEvent_reset_tablesWf {s : State} (h : s.tablesWf = true) (node : Nat) :
    (s.deviceEvent .reset node).tablesWf = true := by
  have hreleased := s.releaseSubscriptions_tablesWf h node
  obtain ⟨image, -, he⟩ | ⟨-, he⟩ | ⟨-, -, he⟩ := s.deviceEvent_reset_cases node
  · rw [he]
    exact State.load_tablesWf _ hreleased 0 image
  · rw [he]
    exact (State.tablesWf_congr (by simp) (by simp) (by simp)).trans hreleased
  · rw [he]
    exact h

/-- R346: a ROM's reset lays its image over memory. -/
theorem State.deviceEvent_reset_read {s : State} (h : s.tablesWf = true) (node : Nat) (addr : Word) :
    (s.deviceEvent .reset node).read addr =
      (s.romImageAt node).elim (s.read addr) fun image => image[addr.toNat]?.getD (s.read addr) := by
  obtain ⟨image, hrom, he⟩ | ⟨hrom, -⟩ | ⟨hrom, -, -⟩ := s.deviceEvent_reset_cases node
  · have hstores := State.loadRom_stores (s.releaseSubscriptions_tablesWf h node) image
    rw [he, hstores.mem, State.read_congr (s.releaseSubscriptions_mem node), hrom]
    rfl
  · rw [State.read_congr (State.deviceEvent_reset_mem hrom), hrom]
    rfl
  · rw [State.read_congr (State.deviceEvent_reset_mem hrom), hrom]
    rfl

/-- R346: the images of the devices reached, laid over one another in the order they are reached. -/
theorem State.eachDevice_reset_read {s : State} (h : s.tablesWf = true) (l : List Nat) (addr : Word) :
    (s.eachDevice .reset l).read addr =
      (l.filterMap s.romImageAt).foldl (fun word image => image[addr.toNat]?.getD word) (s.read addr) := by
  induction l generalizing s with
  | nil => rfl
  | cons node l ih =>
    have himages : (s.deviceEvent .reset node).romImageAt = s.romImageAt :=
      State.romImageAt_congr (s.deviceEvent_fixed .reset node)
    rw [State.eachDevice, ih (State.deviceEvent_reset_tablesWf h node), himages, State.deviceEvent_reset_read h]
    cases hrom : s.romImageAt node <;> simp [hrom]

/-! ### Subscriptions over a reset -/

/-- The counts' agreement depends on the counts and the records alone. -/
theorem State.countsAgree_congr {s t : State} (hc : t.syncCount = s.syncCount) (hs : t.subs = s.subs)
    (h : s.countsAgree) : t.countsAgree := by
  intro r
  rw [State.syncOf_congr hc, h r, State.liveSubscriptions, State.liveSubscriptions, hs]

theorem State.unregisterOwned_countsAgree {s : State} (hw : s.tablesWf = true) (hc : s.countsAgree) (owner n : Nat) :
    (s.unregisterOwned owner n).countsAgree := by
  induction n with
  | zero => exact hc
  | succ n ih =>
    simp only [State.unregisterOwned]
    split
    · split
      · exact State.unregister_countsAgree _ (s.unregisterOwned_tablesWf hw owner n) ih n
      · exact ih
    · exact ih

theorem State.deviceEvent_reset_countsAgree {s : State} (hw : s.tablesWf = true) (hc : s.countsAgree) (node : Nat) :
    (s.deviceEvent .reset node).countsAgree := by
  have hreleased : (s.releaseSubscriptions node).countsAgree := State.unregisterOwned_countsAgree hw hc node _
  obtain ⟨image, -, he⟩ | ⟨-, he⟩ | ⟨-, -, he⟩ := s.deviceEvent_reset_cases node
  · rw [he]
    exact State.countsAgree_congr (by simp) (by simp) hreleased
  · rw [he]
    exact State.countsAgree_congr (by simp) (by simp) hreleased
  · rw [he]
    exact hc

theorem State.deviceEvent_reset_subs {s : State} {node : Nat} (h : node < s.devices.length) :
    (s.deviceEvent .reset node).subs = s.subs.map (Subscription.afterReset [node]) := by
  obtain ⟨image, -, he⟩ | ⟨-, he⟩ | ⟨-, hnone, -⟩ := s.deviceEvent_reset_cases node
  · rw [he, State.loadRom_subs, State.releaseSubscriptions_subs]
  · rw [he, State.respond_subs, State.releaseSubscriptions_subs]
  · exact absurd h (not_lt.mpr hnone)

theorem Subscription.afterReset_nil (u : Subscription) : u.afterReset [] = u := by
  simp [Subscription.afterReset]

/-- R40: a record given up by one device of a list is given up by the list. -/
theorem Subscription.afterReset_cons (node : Nat) (l : List Nat) (u : Subscription) :
    (u.afterReset [node]).afterReset l = u.afterReset (node :: l) := by
  by_cases hnode : u.owner = node
  · simp [Subscription.afterReset, hnode]
  · simp [Subscription.afterReset, hnode]

theorem State.eachDevice_reset_subs {s : State} {l : List Nat} (h : ∀ node ∈ l, node < s.devices.length) :
    (s.eachDevice .reset l).subs = s.subs.map (Subscription.afterReset l) := by
  induction l generalizing s with
  | nil => exact (List.map_id' s.subs).symm.trans (List.map_congr_left fun u _ => u.afterReset_nil.symm)
  | cons node l ih =>
    obtain ⟨hnode, hl⟩ := List.forall_mem_cons.mp h
    have hlength : (s.deviceEvent .reset node).devices.length = s.devices.length := by
      have hfixed := congrArg List.length (s.deviceEvent_fixed .reset node)
      rwa [List.length_map, List.length_map] at hfixed
    rw [State.eachDevice, ih (hlength ▸ hl), State.deviceEvent_reset_subs hnode, List.map_map]
    exact List.map_congr_left fun u _ => u.afterReset_cons node l

/-! ### Reset -/

theorem State.clear_tablesWf {s : State} (h : s.tablesWf = true) : s.clear.tablesWf = true := s.memoryReset_tablesWf h

theorem State.hostReset_pc (s : State) : s.hostReset.pc = 0 :=
  State.eachDevice_keep (P := fun u => u.pc = 0) (fun _ node h => State.deviceEvent_reset_pc h node) rfl _

theorem State.hostReset_dirty (s : State) : s.hostReset.dirty = [] :=
  State.eachDevice_keep (P := fun u => u.dirty = []) (fun _ node h => State.deviceEvent_reset_dirty h node) rfl _

theorem State.hostReset_fixed (s : State) : s.hostReset.devices.map Device.fixed = s.devices.map Device.fixed :=
  s.clear.eachDevice_fixed .reset _

theorem State.hostReset_subs (s : State) :
    s.hostReset.subs = s.subs.map (Subscription.afterReset (broadcastOrder s.devices)) :=
  State.eachDevice_reset_subs (s := s.clear) fun _ h => lt_of_mem_broadcastOrder h

theorem State.hostReset_countsAgree {s : State} (hw : s.tablesWf = true) (hc : s.countsAgree) :
    s.hostReset.countsAgree := by
  have hclear : s.clear.countsAgree := State.countsAgree_congr rfl rfl hc
  have hboth := State.eachDevice_keep (P := fun u => u.tablesWf = true ∧ u.countsAgree) (e := .reset)
    (fun _ node h => ⟨State.deviceEvent_reset_tablesWf h.1 node, State.deviceEvent_reset_countsAgree h.1 h.2 node⟩)
    ⟨State.clear_tablesWf hw, hclear⟩ (broadcastOrder s.devices)
  exact hboth.2

/-- R45: without a ROM nothing is loaded. -/
theorem State.hostReset_mem {s : State} (h : ∀ d ∈ s.devices, ∀ image, d.kind ≠ .rom image) :
    s.hostReset.mem = [] := by
  have hnone : ∀ node, s.clear.romImageAt node = none := by
    intro node
    by_contra hsome
    obtain ⟨image, himage⟩ := Option.ne_none_iff_exists'.mp hsome
    obtain ⟨d, hd, hkind⟩ := Option.map_eq_some_iff.mp (State.romImageAt_eq_some.mp himage)
    exact h d (List.mem_of_getElem? hd) image hkind
  have hboth := State.eachDevice_keep (P := fun u => u.mem = [] ∧ u.romImageAt = s.clear.romImageAt) (e := .reset)
    (fun u node hu => ⟨(State.deviceEvent_reset_mem (by rw [hu.2, hnone])).trans hu.1,
      (State.romImageAt_congr (u.deviceEvent_fixed .reset node)).trans hu.2⟩) ⟨rfl, rfl⟩ (broadcastOrder s.devices)
  exact hboth.1

/-- R45 to R49: the fields that Reset gives a stated value. -/
theorem State.hostReset_eq (s : State) : s.hostReset =
    { State.reset with running := s.running, mem := s.hostReset.mem, syncCount := s.hostReset.syncCount
                       subs := s.hostReset.subs, devices := s.hostReset.devices, config := s.config
                       deviceDraws := s.hostReset.deviceDraws } := by
  apply State.eq_of_fields
  case pc => exact s.hostReset_pc
  case dirty => exact s.hostReset_dirty
  all_goals simp [State.hostReset, State.clear, State.memoryReset, State.reset]

/-- R301: with no devices a broadcast reaches none. -/
theorem State.hostReset_of_no_devices {s : State} (h : s.devices = []) : s.hostReset = s.clear := by
  have hnone : broadcastOrder s.clear.devices = [] := by
    rw [show s.clear.devices = [] from h]
    rfl
  rw [State.hostReset, State.broadcast, hnone, State.eachDevice]

theorem State.start_eq (s : State) :
    s.start = { s with running := true, devices := s.start.devices, deviceDraws := s.start.deviceDraws } :=
  State.broadcast_eq (by decide) { s with running := true }

theorem State.stop_eq (s : State) :
    s.stop = { s with running := false, devices := s.stop.devices, deviceDraws := s.stop.deviceDraws } :=
  State.broadcast_eq (by decide) { s with running := false }

/-- Settles O29. -/
theorem resetLeavesTheStatedValues : Obligations.ResetLeavesTheStatedValues := by
  unfold Obligations.ResetLeavesTheStatedValues
  refine ⟨fun s => ⟨s.hostReset_eq, s.hostReset_fixed, s.hostReset_subs, State.hostReset_countsAgree,
    State.hostReset_mem, fun hnone => ?_⟩, rfl, fun s =>
    ⟨s.start_eq, State.eachDevice_fixed _ .start _, s.stop_eq, State.eachDevice_fixed _ .stop _⟩⟩
  rw [State.hostReset_of_no_devices hnone]
  exact ⟨rfl, rfl, hnone, rfl⟩

/-! ### ROMs -/

/-- R346: the images laid over one another on a zeroed memory. -/
theorem State.hostReset_read {s : State} (h : s.tablesWf = true) (addr : Word) :
    s.hostReset.read addr = s.romImages.foldl (fun word image => image[addr.toNat]?.getD word) 0 :=
  State.eachDevice_reset_read (State.clear_tablesWf h) (broadcastOrder s.devices) addr

/-- R346: a single ROM under the processor is the one image. -/
theorem State.romImages_single {s : State} {id : Identity} {image : List Word}
    (h : s.devices = [{ upstream := .processor, identity := id, kind := .rom image }]) : s.romImages = [image] := by
  rw [State.romImages_eq]
  unfold State.romImageAt
  rw [h]
  rfl

/-- R346: a load command changes memory, its dirty flags and pc. -/
theorem State.loadRom_eq (s : State) (image : List Word) : s.loadRom image =
    { s with pc := 0, mem := (s.loadRom image).mem, dirty := (s.loadRom image).dirty } := by
  apply State.eq_of_fields <;> simp [State.loadRom]

/-- R310: a load command that the host gives. -/
theorem State.romCommand_of_rom {s : State} {node : Nat} {d : Device} {image : List Word}
    (hd : s.devices[node]? = some d) (hkind : d.kind = .rom image) :
    hostStep (.romCommand node) s = .next (s.loadRom image) := by
  obtain ⟨upstream, id, kind⟩ := d
  subst hkind
  simp only [hostStep, State.romCommand, hd]

/-- Settles O30. -/
theorem resetLoadsTheRom : Obligations.ResetLoadsTheRom := by
  unfold Obligations.ResetLoadsTheRom
  refine ⟨fun s addr h => State.hostReset_read h addr, fun s id image h hone => ?_, fun s node d image h hd hkind =>
    ⟨_, State.romCommand_of_rom hd hkind, s.loadRom_eq image, State.loadRom_stores h image⟩⟩
  have hreset := s.hostReset_eq
  refine ⟨congrArg State.regs hreset, s.hostReset_pc, congrArg State.sp hreset, congrArg State.ex hreset,
    congrArg State.ia hreset, (congrArg State.running hreset :), fun addr => ?_, fun r => ?_⟩
  · rw [State.hostReset_read h, State.romImages_single hone]
    rfl
  · rw [State.isDirty, s.hostReset_dirty]
    rfl

/-! ### A storage controller without a medium -/

/-- R314: the report of a missing medium, Busy or not. -/
theorem State.storageCommand_of_noMedium {s : State} {node : Nat} {c : Storage} (hc : s.storageAt node = some c)
    (hm : c.medium = none) (kind : TransferKind) (sector : Nat) (base : Word) :
    s.storageCommand node kind sector base = .next (s.setKind node (.storage (c.reportNoMedium kind))) := by
  simp only [State.storageCommand, hc, State.transferCommand, hm, Option.isNone_none, if_true]

/-- Settles O33. -/
theorem storageReadWithoutMediumReportsError2 : Obligations.StorageReadWithoutMediumReportsError2 := by
  unfold Obligations.StorageReadWithoutMediumReportsError2
  exact fun s node sector base c hc hm =>
    ⟨_, State.storageCommand_of_noMedium hc hm .reading sector base, State.storageAt_setKind hc _, rfl⟩

end Sys2Proof.Machine
end

section
/-! The other basic instructions (spec/41_arithmetic.md R161, R166 to R173, spec/42_logic_shift.md, spec/43_conditional.md
R210 to R218): each ALU function and condition in the arithmetic of words, and the obligations about them, each of which
is then a use of the basic or the conditional template. -/

namespace Sys2Proof.Machine

/-! ### Narrowing -/

/-- R11: narrowing keeps the low word of a number. -/
theorem trunc16_natCast (n : Nat) : trunc16 n = BitVec.ofNat 16 n := BitVec.ofInt_natCast 16 n

theorem trunc16_toNat (v : Word) : trunc16 v.toNat = v := by
  rw [trunc16_natCast, BitVec.ofNat_toNat, BitVec.setWidth_eq]

theorem trunc16_signed (v : Word) : trunc16 (signed v) = v := BitVec.ofInt_toInt

theorem trunc16_add (m n : Int) : trunc16 (m + n) = trunc16 m + trunc16 n := BitVec.ofInt_add m n

theorem trunc16_sub (m n : Int) : trunc16 (m - n) = trunc16 m - trunc16 n := by
  rw [sub_eq_add_neg, trunc16_add, BitVec.sub_eq_add_neg]
  exact congrArg (trunc16 m + ·) BitVec.ofInt_neg

/-- R170, R171: whichever way EX is read, it adds the same word. -/
theorem trunc16_carryIn (exSigned : Bool) (ex : Word) : trunc16 (carryIn exSigned ex) = ex := by
  cases exSigned with
  | false => exact trunc16_toNat ex
  | true => exact trunc16_signed ex

/-! ### Division -/

/-- R166: the quotient of words is 0 where the divisor is. -/
theorem aluDiv_eq (vb va : Word) :
    aluDiv vb va = .withEx (vb / va) (if va = 0 then 0 else BitVec.ofNat 16 (vb.toNat * 65536 / va.toNat)) := by
  by_cases hzero : va = 0
  · simp [aluDiv, hzero]
  · have hquotient : trunc16 (vb.toNat / va.toNat : Nat) = vb / va := by
      rw [← BitVec.toNat_udiv, trunc16_toNat]
    simp only [aluDiv, hzero, if_false, hquotient, trunc16_natCast]

/-- R167: -32768 / -1 wraps to 0x8000 in both. -/
theorem trunc16_tdiv (vb va : Word) : trunc16 ((signed vb).tdiv (signed va)) = vb.sdiv va := by
  apply BitVec.eq_of_toInt_eq
  rw [BitVec.toInt_sdiv, trunc16, BitVec.toInt_ofInt, signed, signed]

theorem aluDvi_eq (vb va : Word) : aluDvi vb va =
    .withEx (vb.sdiv va) (if va = 0 then 0 else BitVec.ofInt 16 ((vb.toInt * 65536).tdiv va.toInt)) := by
  by_cases hzero : va = 0
  · simp [aluDvi, hzero]
  · simp only [aluDvi, hzero, if_false, trunc16_tdiv]
    rfl

/-- R168, R169: a remainder, or 0 and the parameter's EX for a zero divisor. -/
theorem ite_aluModZero (va v : Word) (writesEx : Bool) :
    (if va = 0 then aluModZero writesEx else .plain v) =
      { result := some (if va = 0 then 0 else v), exNew := if va = 0 ∧ writesEx = true then some 0 else none } := by
  by_cases hzero : va = 0
  · cases writesEx <;> simp [hzero, aluModZero, AluOut.plain, AluOut.withEx]
  · simp only [hzero, if_false, false_and]
    rfl

theorem aluMod_eq (writesEx : Bool) (vb va : Word) : aluMod writesEx vb va =
    { result := some (if va = 0 then 0 else vb % va), exNew := if va = 0 ∧ writesEx = true then some 0 else none } := by
  have hremainder : trunc16 (vb.toNat % va.toNat : Nat) = vb % va := by
    rw [← BitVec.toNat_umod, trunc16_toNat]
  rw [aluMod, hremainder, ite_aluModZero]

theorem aluMdi_eq (writesEx : Bool) (vb va : Word) : aluMdi writesEx vb va =
    { result := some (if va = 0 then 0 else vb.srem va), exNew := if va = 0 ∧ writesEx = true then some 0 else none } := by
  have hremainder : trunc16 ((signed vb).tmod (signed va)) = vb.srem va := by
    rw [signed, signed, ← BitVec.toInt_srem]
    exact trunc16_signed _
  rw [aluMdi, hremainder, ite_aluModZero]

/-! ### Sums with EX -/

theorem aluAdx_eq (exSigned : Bool) (ex vb va : Word) : aluAdx exSigned ex vb va =
    .withEx (vb + va + ex) (if (vb.toNat + va.toNat + carryIn exSigned ex : Int) > 0xFFFF then 1 else 0) := by
  simp only [aluAdx, trunc16_add, trunc16_toNat, trunc16_carryIn]

theorem aluSbx_eq (exSigned : Bool) (ex vb va : Word) : aluSbx exSigned ex vb va =
    .withEx (vb - va + ex) (if (vb.toNat - va.toNat + carryIn exSigned ex : Int) < 0 then 0xFFFF
      else if (vb.toNat - va.toNat + carryIn exSigned ex : Int) > 0xFFFF then 1 else 0) := by
  simp only [aluSbx, trunc16_add, trunc16_sub, trunc16_toNat, trunc16_carryIn]

/-! ### Shifts -/

/-- R194: the word above 16 zeros. -/
theorem toNat_append_zeros (v : Word) : (v ++ 0#16 : BitVec 32).toNat = v.toNat * 65536 := by
  rw [BitVec.toNat_append]
  simp [Nat.shiftLeft_eq]

/-- R194: the low word of the 32-bit right shift is what it moves out of the word. -/
theorem shiftedOutRight_eq (vb va : Word) :
    shiftedOutRight vb va = ((vb ++ 0#16 : BitVec 32) >>> va.toNat).extractLsb' 0 16 := by
  apply BitVec.eq_of_toNat_eq
  rw [shiftedOutRight, trunc16_natCast, BitVec.toNat_ofNat, BitVec.extractLsb'_toNat, BitVec.toNat_ushiftRight,
    toNat_append_zeros, Nat.shiftRight_zero, Nat.shiftRight_eq_div_pow]

theorem aluShr_eq (vb va : Word) :
    aluShr vb va = .withEx (((vb ++ 0#16 : BitVec 32) >>> va.toNat).extractLsb' 16 16)
      (((vb ++ 0#16 : BitVec 32) >>> va.toNat).extractLsb' 0 16) := by
  have hresult : trunc16 (vb.toNat / 2 ^ va.toNat : Nat) =
      ((vb ++ 0#16 : BitVec 32) >>> va.toNat).extractLsb' 16 16 := by
    apply BitVec.eq_of_toNat_eq
    rw [trunc16_natCast, BitVec.toNat_ofNat, BitVec.extractLsb'_toNat, BitVec.toNat_ushiftRight, toNat_append_zeros,
      Nat.shiftRight_eq_div_pow, Nat.shiftRight_eq_div_pow, Nat.div_right_comm,
      Nat.mul_div_cancel _ (by decide : 0 < 65536)]
  rw [aluShr, hresult, shiftedOutRight_eq]

/-- R196: the 32-bit left shift is the product by a power of two. -/
theorem setWidth_shiftLeft_eq (v : Word) (n : Nat) : v.setWidth 32 <<< n = BitVec.ofInt 32 (v.toNat * 2 ^ n : Nat) := by
  apply BitVec.eq_of_toNat_eq
  rw [BitVec.ofInt_natCast, BitVec.toNat_ofNat, BitVec.toNat_shiftLeft, BitVec.toNat_setWidth, Nat.shiftLeft_eq,
    Nat.mod_mul_mod]

theorem aluShl_eq (vb va : Word) :
    aluShl vb va = .withEx ((vb.setWidth 32 <<< va.toNat).extractLsb' 0 16)
      ((vb.setWidth 32 <<< va.toNat).extractLsb' 16 16) := by
  rw [setWidth_shiftLeft_eq, extractLsb'_low_ofInt, extractLsb'_high_ofInt]
  rfl

/-- R195: the quotient by a power of two, rounded down, fills with the sign. -/
theorem aluAsr_eq (vb va : Word) : aluAsr vb va = .withEx (vb.sshiftRight va.toNat) (shiftedOutRight vb va) := by
  have hresult : trunc16 (signed vb / ((2 ^ va.toNat : Nat) : Int)) = vb.sshiftRight va.toNat := by
    rw [signed, ← Int.shiftRight_eq_div_pow, ← BitVec.toInt_sshiftRight]
    exact trunc16_signed _
  rw [aluAsr, hresult]

/-! ### The instructions -/

/-- R139: the whole next state of an opcode that computes a result, and EX where it has one. -/
theorem runBasic_effect_of {op : Word → Word → AluOut} {b a : Operand} {s : State} {v e : Option Word} (cost : Nat)
    (hb : bothStack b a = false) (hw : s.tablesWf = true)
    (hop : op (s.valueB b a) (s.valueA a) = { result := v, exNew := e }) :
    ∃ t, runBasic op id cost b a s = .next t ∧ BasicEffect s t b a v e s.skipping cost := by
  have heffect := runBasic_effect op cost hb hw
  rwa [hop] at heffect

/-- R210: the whole next state of a conditional whose condition is known. -/
theorem runConditional_effect_of {cond : Word → Word → Bool} {b a : Operand} {s : State} {holds : Bool} (cost : Nat)
    (hb : bothStack b a = false) (hcond : cond (s.valueB b a) (s.valueA a) = holds) :
    ∃ t, runConditional cond cost b a s = .next t ∧ BasicEffect s t b a none none (s.skipping || !holds) cost := by
  have heffect := runConditional_effect cond cost (s := s) hb
  rwa [hcond] at heffect

/-- Settles O34. -/
theorem setMovesOperandA : Obligations.SetMovesOperandA := by
  unfold Obligations.SetMovesOperandA
  exact fun _ _ s hb hw => runBasic_effect_of s.config.waitCost.set hb hw rfl

/-- Settles O39. -/
theorem divWritesQuotientAndFraction : Obligations.DivWritesQuotientAndFraction := by
  unfold Obligations.DivWritesQuotientAndFraction
  exact fun _ _ s hb hw => runBasic_effect_withEx s.config.waitCost.div hb hw (aluDiv_eq _ _)

/-- Settles O40. -/
theorem dviWritesSignedQuotient : Obligations.DviWritesSignedQuotient := by
  unfold Obligations.DviWritesSignedQuotient
  exact fun _ _ s hb hw => runBasic_effect_withEx s.config.waitCost.dvi hb hw (aluDvi_eq _ _)

/-- Settles O41. -/
theorem modAndMdiWriteTheRemainder : Obligations.ModAndMdiWriteTheRemainder := by
  unfold Obligations.ModAndMdiWriteTheRemainder
  exact fun _ _ s hb hw => ⟨runBasic_effect_of s.config.waitCost.mod hb hw (aluMod_eq _ _ _),
    runBasic_effect_of s.config.waitCost.mdi hb hw (aluMdi_eq _ _ _)⟩

/-- Settles O42. -/
theorem adxAndSbxAddEx : Obligations.AdxAndSbxAddEx := by
  unfold Obligations.AdxAndSbxAddEx
  exact fun _ _ s hb hw => ⟨runBasic_effect_withEx s.config.waitCost.adx hb hw (aluAdx_eq _ _ _ _),
    runBasic_effect_withEx s.config.waitCost.sbx hb hw (aluSbx_eq _ _ _ _)⟩

/-- R172, R173: the move, and after it both cursors. -/
theorem moveThenStep_effect {b a : Operand} {s : State} (d : Word) (cost : Nat) (hb : bothStack b a = false)
    (hw : s.tablesWf = true) : ∃ u, BasicEffect s u b a (some (s.valueA a)) none s.skipping cost ∧
      runBasic aluSet (fun t => t.stepCursors d) cost b a s =
        .next ((u.setReg .i (u.reg .i + d)).setReg .j (u.reg .j + d)) := by
  obtain ⟨u, hnext, heffect⟩ := runBasic_effect_of (op := aluSet) cost hb hw rfl
  exact ⟨u, heffect, runBasic_after (State.stepCursors_addWait d) (State.stepCursors_config · d) hnext⟩

/-- Settles O43: one less is the sum with -1. -/
theorem stiAndStdMoveThenStep : Obligations.StiAndStdMoveThenStep := by
  unfold Obligations.StiAndStdMoveThenStep
  intro b a s hb hw
  obtain ⟨u, heffect, hstd⟩ := moveThenStep_effect (-1) s.config.waitCost.std hb hw
  refine ⟨moveThenStep_effect 1 s.config.waitCost.sti hb hw, u, heffect, hstd.trans ?_⟩
  rw [← BitVec.sub_eq_add_neg, ← BitVec.sub_eq_add_neg]

/-- Settles O44. -/
theorem bitwiseResults : Obligations.BitwiseResults := by
  unfold Obligations.BitwiseResults
  exact fun _ _ s hb hw => ⟨runBasic_effect_of s.config.waitCost.and hb hw rfl,
    runBasic_effect_of s.config.waitCost.bor hb hw rfl, runBasic_effect_of s.config.waitCost.xor hb hw rfl⟩

/-- Settles O45. -/
theorem shiftsSplitA32BitValue : Obligations.ShiftsSplitA32BitValue := by
  unfold Obligations.ShiftsSplitA32BitValue
  exact fun _ _ s hb hw => ⟨runBasic_effect_withEx s.config.waitCost.shr hb hw (aluShr_eq _ _),
    runBasic_effect_withEx s.config.waitCost.shl hb hw (aluShl_eq _ _)⟩

/-- Settles O46: the model's EX is the low word of the shift for every count. -/
theorem asrFillsWithTheSign : Obligations.AsrFillsWithTheSign := by
  unfold Obligations.AsrFillsWithTheSign
  exact fun _ _ s hb hw => ⟨_, fun _ => shiftedOutRight_eq _ _,
    runBasic_effect_withEx s.config.waitCost.asr hb hw (aluAsr_eq _ _)⟩

/-- Settles O47. -/
theorem bitAndEqualityConditionsSetSkipping : Obligations.BitAndEqualityConditionsSetSkipping := by
  unfold Obligations.BitAndEqualityConditionsSetSkipping
  exact fun _ _ s hb _ => ⟨runConditional_effect_of s.config.waitCost.ifb hb rfl,
    runConditional_effect_of s.config.waitCost.ifc hb rfl, runConditional_effect_of s.config.waitCost.ife hb rfl,
    runConditional_effect_of s.config.waitCost.ifn hb rfl⟩

/-- Settles O48: words are compared by their numbers, unsigned or signed. -/
theorem orderConditionsSetSkipping : Obligations.OrderConditionsSetSkipping := by
  unfold Obligations.OrderConditionsSetSkipping
  exact fun _ _ s hb _ => ⟨runConditional_effect_of s.config.waitCost.ifg hb rfl,
    runConditional_effect_of s.config.waitCost.ifa hb rfl, runConditional_effect_of s.config.waitCost.ifl hb rfl,
    runConditional_effect_of s.config.waitCost.ifu hb rfl⟩

end Sys2Proof.Machine
end
